-- ==== Sys2Proof/Word.lean ====
section
/-! DEFINITION. The word types of the Kalyna CORE: the 64-bit data word, the 8-bit byte, the 32-bit command word and
the list of words the datapath functions work on (spec/00_scope.md rules R8, R9 and R13). -/

namespace Sys2Proof

/-- A 64-bit data word (R8: "word width"). -/
abbrev Word := BitVec 64

/-- A byte, and an element of GF(2^8) (R8: "byte width, GF element width"). -/
abbrev Byte := BitVec 8

/-- The 32-bit command word CMD (R8: "command word width"). -/
abbrev CmdWord := BitVec 32

/-- A vector of words `V[0..n-1]` (R13); a state block has `nb` of them, word 0 first. -/
abbrev Block := List Word

end Sys2Proof
end

