-- ==== Sys2Proof/Config.lean ====
section
/-! DEFINITION. What is fixed outside the machine's state: the type of the parameter TABLES, the OPEN parameter
CMD_LATENCY, and the free value that stands for every content the spec leaves unspecified. The default values of
TABLES stand in Machine/Tables.lean. -/

namespace Sys2Proof.Config

/-- The parameter TABLES (R8, decision D30): the four forward S-boxes and the two 8x8 matrices. The inverse
S-boxes are derived from `sbox` (R63: "SI derived"). -/
structure Tables where
  /-- `S[t][v]` (R62). -/
  sbox : Fin 4 → Byte → Byte
  /-- `MDS[row][b]` (R92). -/
  mds : Fin 8 → Fin 8 → Byte
  /-- `MDS_INV[row][b]` (R93). -/
  mdsInv : Fin 8 → Fin 8 → Byte

/-- CMD_LATENCY (R189): the cycles a command with this OPC takes under `nb`, `nk`, `nr`. It is OPEN in the spec, so
it has no body here; a natural number is finite, which is all the rule says of it, and nothing in the model reads it
(assumption log entry 6). -/
opaque cmdLatency : (opc : Byte) → (nb nk nr : Nat) → Nat

/-- The content of a register word that the spec calls unspecified (R18, R180, R232): the word in place `slot` at the
`draw`-th time the machine loses contents. It has no body, so nothing can be proved of its value
(assumption log entry 2). -/
opaque freeWord : (draw slot : Nat) → Word

end Sys2Proof.Config
end

