-- ==== Sys2Proof/Syntax.lean ====
section
/-! DEFINITION. The 33 commands of the opcode map (spec/30_encoding.md rule R205), one constructor per row, with the
operands that their formats give them (R201, R202). -/

namespace Sys2Proof

/-- The 2-bit size codes BSZ and KSZ of CREATE (R201): 0 = 128, 1 = 256, 2 = 512, 3 = reserved. The reserved code
decodes, and is rejected by CREATE itself (R204, R231). -/
inductive SizeCode where
  | bits128
  | bits256
  | bits512
  | reserved
deriving DecidableEq, Repr

/-- The command set (R205). A word index `w` (field W) and a round index `r` (field R) are plain numbers, bounded by
`Instr.WellFormed`; a table number `t` (field T) and the byte operands of GFMUL take every value of their field. -/
inductive Instr where
  | nop
  | create (ksz bsz : SizeCode)
  | destroy
  | clrerr
  | rdstat
  | ldst (w : Nat)
  | ldkey (w : Nat)
  | ldaux (w : Nat)
  | rdst (w : Nat)
  | rdrk (r w : Nat)
  | rdkt (w : Nat)
  | gfmul (a b : Byte)
  | sbox (t : Fin 4)
  | isbox (t : Fin 4)
  | subb
  | isubb
  | shrow
  | ishrow
  | mixcol
  | imixcol
  | eround
  | dround
  | addrk (r : Nat)
  | subrk (r : Nat)
  | xorrk (r : Nat)
  | addx
  | xorx
  | ktgen
  | evenkeys
  | oddkeys
  | expand
  | enc
  | dec
deriving DecidableEq, Repr

end Sys2Proof
end

