-- ==== Sys2Proof/WellFormed.lean ====
section
/-! DEFINITION. Which commands a command word can express: each index fits its field (spec/30_encoding.md rule R201).
An index that fits its field and lies beyond the context's range is well-formed: it faults at execution (R204). -/

namespace Sys2Proof

/-- `w` fits the 3-bit field W (R201: "word index 0..7"). -/
abbrev wordIndexFits (w : Nat) : Bool := w < 8

/-- `r` fits the 5-bit field R (R201: "round-key index 0..31"). -/
abbrev roundIndexFits (r : Nat) : Bool := r < 32

/-- Every index operand fits the field that carries it (R201). -/
def Instr.WellFormed : Instr → Bool
  | .nop => true
  | .create _ _ => true
  | .destroy => true
  | .clrerr => true
  | .rdstat => true
  | .ldst w => wordIndexFits w
  | .ldkey w => wordIndexFits w
  | .ldaux w => wordIndexFits w
  | .rdst w => wordIndexFits w
  | .rdrk r w => roundIndexFits r && wordIndexFits w
  | .rdkt w => wordIndexFits w
  | .gfmul _ _ => true
  | .sbox _ => true
  | .isbox _ => true
  | .subb => true
  | .isubb => true
  | .shrow => true
  | .ishrow => true
  | .mixcol => true
  | .imixcol => true
  | .eround => true
  | .dround => true
  | .addrk r => roundIndexFits r
  | .subrk r => roundIndexFits r
  | .xorrk r => roundIndexFits r
  | .addx => true
  | .xorx => true
  | .ktgen => true
  | .evenkeys => true
  | .oddkeys => true
  | .expand => true
  | .enc => true
  | .dec => true

end Sys2Proof
end

