-- ==== Sys2Proof/Decode.lean ====
section
/-! DEFINITION. The command decoder, total on every 32-bit word, and after it the encoder (spec/30_encoding.md rules
R201 to R205). -/

namespace Sys2Proof

/-- The seven command formats (R202). -/
inductive Format where
  | N | C | W | T | R | RW | G
deriving DecidableEq, Repr

/-- Why a command word is no command (R203): both are the illegal command that raises ILLEGAL_CMD. -/
inductive DecodeError where
  /-- The OPC is assigned to no row of R205. -/
  | unassignedOpcode (opc : Byte)
  /-- The OPC is assigned and a reserved bit of its format is 1. -/
  | reservedBit (opc : Byte)
deriving DecidableEq, Repr

/-- The bits a format fixes: OPC and the reserved zeros (R202, column "mask"). -/
def Format.mask : Format → CmdWord
  | .N => 0xFFFFFFFF#32
  | .C => 0xFFF0FFFF#32
  | .W => 0xFFFFFFF8#32
  | .T => 0xFFFFFFFC#32
  | .R => 0xFFFFE0FF#32
  | .RW => 0xFFFFE0F8#32
  | .G => 0xFFFF0000#32

/-- `OPC = CMD[31:24]` (R201). -/
def opcField (c : CmdWord) : Byte := c.extractLsb' 24 8

/-- `A = CMD[15:8]` (R201). -/
def aField (c : CmdWord) : Byte := c.extractLsb' 8 8

/-- `B = CMD[7:0]` (R201). -/
def bField (c : CmdWord) : Byte := c.extractLsb' 0 8

/-- `R = CMD[12:8]` (R201). -/
def rField (c : CmdWord) : Nat := (c.extractLsb' 8 5).toNat

/-- `W = CMD[2:0]` (R201). -/
def wField (c : CmdWord) : Nat := (c.extractLsb' 0 3).toNat

/-- `T = CMD[1:0]` (R201). -/
def tField (c : CmdWord) : Fin 4 := (c.extractLsb' 0 2).toFin

/-- The size that a 2-bit code names (R201). -/
def sizeOfCode (code : BitVec 2) : SizeCode :=
  match code.toNat with
  | 0 => .bits128
  | 1 => .bits256
  | 2 => .bits512
  | _ => .reserved

/-- `KSZ = CMD[19:18]` (R201). -/
def kszField (c : CmdWord) : SizeCode := sizeOfCode (c.extractLsb' 18 2)

/-- `BSZ = CMD[17:16]` (R201). -/
def bszField (c : CmdWord) : SizeCode := sizeOfCode (c.extractLsb' 16 2)

/-- The row of the opcode map (R205) for an OPC: its format, and the command with its fields read from `c`. -/
def opcodeRow (opc : Nat) (c : CmdWord) : Option (Format × Instr) :=
  match opc with
  | 0x00 => some (.N, .nop)
  | 0x01 => some (.C, .create (kszField c) (bszField c))
  | 0x02 => some (.N, .destroy)
  | 0x03 => some (.N, .clrerr)
  | 0x04 => some (.N, .rdstat)
  | 0x10 => some (.W, .ldst (wField c))
  | 0x11 => some (.W, .ldkey (wField c))
  | 0x12 => some (.W, .ldaux (wField c))
  | 0x18 => some (.W, .rdst (wField c))
  | 0x19 => some (.RW, .rdrk (rField c) (wField c))
  | 0x1A => some (.W, .rdkt (wField c))
  | 0x20 => some (.G, .gfmul (aField c) (bField c))
  | 0x21 => some (.T, .sbox (tField c))
  | 0x22 => some (.T, .isbox (tField c))
  | 0x30 => some (.N, .subb)
  | 0x31 => some (.N, .isubb)
  | 0x32 => some (.N, .shrow)
  | 0x33 => some (.N, .ishrow)
  | 0x34 => some (.N, .mixcol)
  | 0x35 => some (.N, .imixcol)
  | 0x38 => some (.N, .eround)
  | 0x39 => some (.N, .dround)
  | 0x40 => some (.R, .addrk (rField c))
  | 0x41 => some (.R, .subrk (rField c))
  | 0x42 => some (.R, .xorrk (rField c))
  | 0x43 => some (.N, .addx)
  | 0x44 => some (.N, .xorx)
  | 0x50 => some (.N, .ktgen)
  | 0x51 => some (.N, .evenkeys)
  | 0x52 => some (.N, .oddkeys)
  | 0x53 => some (.N, .expand)
  | 0x60 => some (.N, .enc)
  | 0x61 => some (.N, .dec)
  | _ => none

/-- The `match` value of a row: `OPC << 24` (R205). -/
def matchValue (opc : Byte) : CmdWord := opc ++ 0#24

/-- R203: a word decodes to the row whose `match` equals `CMD & mask`, and to no command where there is none. -/
def decode (c : CmdWord) : Except DecodeError Instr :=
  match opcodeRow (opcField c).toNat c with
  | none => .error (.unassignedOpcode (opcField c))
  | some (f, i) =>
    if c &&& f.mask = matchValue (opcField c) then .ok i else .error (.reservedBit (opcField c))

/-- The 2-bit code of a size (R201). -/
def SizeCode.code : SizeCode → BitVec 2
  | .bits128 => 0#2
  | .bits256 => 1#2
  | .bits512 => 2#2
  | .reserved => 3#2

/-- Format N: OPC and 24 reserved zeros (R202). -/
def encodeN (opc : Byte) : CmdWord := opc ++ 0#24

/-- Format C (R202): `OPC 0000 KSZ BSZ` and 16 reserved zeros. -/
def encodeC (opc : Byte) (ksz bsz : BitVec 2) : CmdWord := opc ++ 0#4 ++ ksz ++ bsz ++ 0#16

/-- Format W (R202): 21 reserved zeros and W. -/
def encodeW (opc : Byte) (w : Nat) : CmdWord := opc ++ 0#21 ++ BitVec.ofNat 3 w

/-- Format T (R202): 22 reserved zeros and T. -/
def encodeT (opc : Byte) (t : Fin 4) : CmdWord := opc ++ 0#22 ++ BitVec.ofNat 2 t.val

/-- Format R (R202): 11 reserved zeros, R, 8 reserved zeros. -/
def encodeR (opc : Byte) (r : Nat) : CmdWord := opc ++ 0#11 ++ BitVec.ofNat 5 r ++ 0#8

/-- Format RW (R202): 11 reserved zeros, R, 5 reserved zeros, W. -/
def encodeRW (opc : Byte) (r w : Nat) : CmdWord := opc ++ 0#11 ++ BitVec.ofNat 5 r ++ 0#5 ++ BitVec.ofNat 3 w

/-- Format G (R202): 8 reserved zeros, A, B. -/
def encodeG (opc a b : Byte) : CmdWord := opc ++ 0#8 ++ a ++ b

/-- The command word of a command (R202, R205); of a well-formed one it is the word that decodes to it. -/
def encode : Instr → CmdWord
  | .nop => encodeN 0x00#8
  | .create ksz bsz => encodeC 0x01#8 ksz.code bsz.code
  | .destroy => encodeN 0x02#8
  | .clrerr => encodeN 0x03#8
  | .rdstat => encodeN 0x04#8
  | .ldst w => encodeW 0x10#8 w
  | .ldkey w => encodeW 0x11#8 w
  | .ldaux w => encodeW 0x12#8 w
  | .rdst w => encodeW 0x18#8 w
  | .rdrk r w => encodeRW 0x19#8 r w
  | .rdkt w => encodeW 0x1A#8 w
  | .gfmul a b => encodeG 0x20#8 a b
  | .sbox t => encodeT 0x21#8 t
  | .isbox t => encodeT 0x22#8 t
  | .subb => encodeN 0x30#8
  | .isubb => encodeN 0x31#8
  | .shrow => encodeN 0x32#8
  | .ishrow => encodeN 0x33#8
  | .mixcol => encodeN 0x34#8
  | .imixcol => encodeN 0x35#8
  | .eround => encodeN 0x38#8
  | .dround => encodeN 0x39#8
  | .addrk r => encodeR 0x40#8 r
  | .subrk r => encodeR 0x41#8 r
  | .xorrk r => encodeR 0x42#8 r
  | .addx => encodeN 0x43#8
  | .xorx => encodeN 0x44#8
  | .ktgen => encodeN 0x50#8
  | .evenkeys => encodeN 0x51#8
  | .oddkeys => encodeN 0x52#8
  | .expand => encodeN 0x53#8
  | .enc => encodeN 0x60#8
  | .dec => encodeN 0x61#8

/-- The command that the decoder reads from an opcode-table row's word: the low `nbits` bits of `w` on the 32-bit
command port, the bits above them zero. -/
def decodeTableWord (nbits w : Nat) : Option Instr := (decode (BitVec.ofNat 32 (w % 2 ^ nbits))).toOption

end Sys2Proof
end

