-- ==== Sys2Proof/Machine/State.lean ====
section
/-! DEFINITION. The state of the Kalyna CORE as plain data (spec/10_state.md rules R17 to R27), the events the host
puts on the command port (R6, R180, R200), the reasons a step can stop, and the state after reset (R30). -/

namespace Sys2Proof.Machine

/-- What the host does at the command port, one event at a time (R6, R15): issue a command, or assert reset between
commands (R180). -/
inductive HostEvent where
  /-- One command transaction: the command word CMD and the data word DIN (R200). -/
  | command (cmd : CmdWord) (din : Word)
  /-- Reset, asserted between commands (R180). -/
  | reset
deriving DecidableEq, Repr

/-- The error codes that a command can raise (R150). Codes 2 and 7 to 15 are never raised (R151) and have no
constructor. -/
inductive ErrorCode where
  | invalidParams
  | noContext
  | indexRange
  | unwritten
  | illegalCmd
deriving DecidableEq, Repr

/-- The architectural state. The last four fields are the model's own: the two words on the command port, the host
events that have not been taken yet, and the counter of free values. -/
structure State where
  /-- ST[0..7], the working state (R17, R19). -/
  st : Vector Word 8
  /-- STV[0..7], the valid bits of ST (R18). -/
  stv : Vector Bool 8
  /-- KEY[0..7], the master key (R17, R20). -/
  key : Vector Word 8
  /-- KEYV[0..7], the valid bits of KEY (R18). -/
  keyv : Vector Bool 8
  /-- AUX[0..7], the auxiliary operand (R17, R21). -/
  aux : Vector Word 8
  /-- AUXV[0..7], the valid bits of AUX (R18). -/
  auxv : Vector Bool 8
  /-- KT[0..7], Kt (R17, R22). -/
  kt : Vector Word 8
  /-- KTV, the valid bit of KT (R18). -/
  ktv : Bool
  /-- RK[0..18][0..7], the round-key table (R17, R23). -/
  rk : Vector (Vector Word 8) 19
  /-- RKV[0..18], the valid bits of the round keys (R18). -/
  rkv : Vector Bool 19
  /-- DOUT, the output word of the last reading command (R17, R24). -/
  dout : Word
  /-- CTX: a context exists (R25). -/
  ctx : Bool
  /-- NB, 4 bits (R25). -/
  nb : BitVec 4
  /-- NK, 4 bits (R25). -/
  nk : BitVec 4
  /-- NR, 5 bits (R25). -/
  nr : BitVec 5
  /-- ERR, the sticky error flag (R26). -/
  err : Bool
  /-- ECODE, 4 bits (R26, R150). -/
  ecode : BitVec 4
  /-- EOPC, 8 bits: the OPC of the command that set ERR (R26). -/
  eopc : Byte
  /-- CMD, the command word of the command being executed (R11, R200). -/
  cmd : CmdWord
  /-- DIN, the data word presented with it (R11, R200). -/
  din : Word
  /-- The host's events that the core has not taken yet, in the order the host issues them (R15, R38). -/
  pending : List HostEvent
  /-- How many times contents have become unspecified: the free values drawn so far (assumption log entry 2). -/
  freeDraws : Nat
deriving DecidableEq, Repr

/-- Why a step can stop with a fault: for no reason. Every error of this core is an error entry after which it goes on
(R153), so the type has no constructor, and a step that faults does not exist. Safe: nothing raises it. -/
inductive Fault
deriving DecidableEq, Repr

/-- Why a step can be refused. -/
inductive Refusal where
  /-- Raised by an arm of `exec` whose instruction has no meaning in the model; no arm does. Safe: the model would
  stop where the hardware goes on. -/
  | notModelled (mnemonic : String)
deriving DecidableEq, Repr

/-- What a command, or a step, answers. -/
abbrev Result := Host.Outcome State Fault Refusal

/-- The machine right after reset (R30, R180): every flag, field, valid bit and DOUT is 0. DESIGN CHOICE, unsafe
(assumption log entry 1): the contents of ST, KEY, AUX, KT and RK, which the spec leaves unspecified, are zero here.
The command port is idle (assumption log entry 3). -/
def State.reset : State where
  st := Vector.replicate 8 0#64
  stv := Vector.replicate 8 false
  key := Vector.replicate 8 0#64
  keyv := Vector.replicate 8 false
  aux := Vector.replicate 8 0#64
  auxv := Vector.replicate 8 false
  kt := Vector.replicate 8 0#64
  ktv := false
  rk := Vector.replicate 19 (Vector.replicate 8 0#64)
  rkv := Vector.replicate 19 false
  dout := 0#64
  ctx := false
  nb := 0#4
  nk := 0#4
  nr := 0#5
  err := false
  ecode := 0#4
  eopc := 0#8
  cmd := 0#32
  din := 0#64
  pending := []
  freeDraws := 0

end Sys2Proof.Machine
end

