-- ==== Sys2Proof/Machine/Operands.lean ====
section
/-! DEFINITION. The operand forms: the byte view of a word (spec/20_memory.md rule R31), byte sequences
(spec/41_canonical.md rules R50 and R51), single words and valid bits of a register file, and the whole-vector reads
and writes of spec/00_scope.md rule R11. -/

namespace Sys2Proof.Machine

/-- `byte(w, j) = w[8*j+7 : 8*j]` (R31). -/
def byteOf (w : Word) (j : Nat) : Byte := w.extractLsb' (8 * j) 8

/-- The word whose byte `j` is `f j` for `0 <= j <= 7` (R31). -/
def ofBytes (f : Nat → Byte) : Word := f 7 ++ f 6 ++ f 5 ++ f 4 ++ f 3 ++ f 2 ++ f 1 ++ f 0

/-- `bytes(V)` (R50): byte 0 of word 0 first. -/
def bytes (v : Block) : List Byte := v.flatMap fun w => (List.range 8).map (byteOf w)

/-- `words(B)` (R51): eight bytes to a word, the first the least significant. Bytes beyond the last multiple of eight
belong to no word. -/
def words : List Byte → Block
  | b0 :: b1 :: b2 :: b3 :: b4 :: b5 :: b6 :: b7 :: rest =>
    (b7 ++ b6 ++ b5 ++ b4 ++ b3 ++ b2 ++ b1 ++ b0) :: words rest
  | _ => []

/-- Word `i` of a register file. The core has no word beyond index 7, and no command that passes its checks in a
context CREATE made reads one. DESIGN CHOICE, unsafe: 0 there (assumption log entry 7). -/
def wordAt (v : Vector Word 8) (i : Nat) : Word := v[i]?.getD 0#64

/-- Valid bit `i` of a register file: a word that does not exist is not valid. -/
def flagAt {n : Nat} (v : Vector Bool n) (i : Nat) : Bool := v[i]?.getD false

/-- Valid bits `0..n-1` are all 1. -/
def allValid {k : Nat} (v : Vector Bool k) (n : Nat) : Bool := (List.range n).all (flagAt v)

/-- Words `0..n-1` of a register file as a vector (R11, R13). -/
def readBlock (v : Vector Word 8) (n : Nat) : Block := v.toList.take n

/-- The register file with the words of `b` written from word 0 on, the words beyond them as they were (R11). -/
def writeBlock (v : Vector Word 8) (b : Block) : Vector Word 8 := Vector.ofFn fun i => b.getD i.val v[i]

/-- `ST[0..nb-1]`. -/
def State.stBlock (s : State) : Block := readBlock s.st s.nb.toNat

/-- `KEY[0..nk-1]`. -/
def State.keyBlock (s : State) : Block := readBlock s.key s.nk.toNat

/-- `AUX[0..nb-1]`. -/
def State.auxBlock (s : State) : Block := readBlock s.aux s.nb.toNat

/-- `KT[0..nb-1]`. -/
def State.ktBlock (s : State) : Block := readBlock s.kt s.nb.toNat

/-- Entry `r` of the round-key table, all eight words. The core has no entry beyond 18, and no command that passes its
checks in a context CREATE made reads one. DESIGN CHOICE, unsafe: zeros there (assumption log entry 7). -/
def State.rkEntry (s : State) (r : Nat) : Vector Word 8 := s.rk[r]?.getD (Vector.replicate 8 0#64)

/-- `RK[r][0..nb-1]`. -/
def State.roundKey (s : State) (r : Nat) : Block := readBlock (s.rkEntry r) s.nb.toNat

/-- `DIN[7:0]`, the byte operand of SBOX and ISBOX (R33, R64). -/
def State.dinByte (s : State) : Byte := byteOf s.din 0

end Sys2Proof.Machine
end

