-- ==== Sys2Proof/Machine/Flags.lean ====
section
/-! DEFINITION. The flag computations: the error codes (spec/60_exceptions.md rule R150), the derived bit KEYED
(spec/10_state.md rule R26) and the status word (R27). -/

namespace Sys2Proof.Machine

/-- The 4-bit ECODE of an error (R150). -/
def ErrorCode.bits : ErrorCode → BitVec 4
  | .invalidParams => 1#4
  | .noContext => 3#4
  | .indexRange => 4#4
  | .unwritten => 5#4
  | .illegalCmd => 6#4

/-- Every round key `0..nr` is valid. -/
def State.rkComplete (s : State) : Bool := allValid s.rkv (s.nr.toNat + 1)

/-- KEYED (R26): `CTX = 1 and RKV[r] = 1 for every r in 0..nr`. -/
def State.keyed (s : State) : Bool := s.ctx && s.rkComplete

/-- Eight valid bits as a byte, bit `i` being the valid bit of word `i` (R27). -/
def flagByte (v : Vector Bool 8) : Byte :=
  BitVec.ofBool v[7] ++ BitVec.ofBool v[6] ++ BitVec.ofBool v[5] ++ BitVec.ofBool v[4] ++
    BitVec.ofBool v[3] ++ BitVec.ofBool v[2] ++ BitVec.ofBool v[1] ++ BitVec.ofBool v[0]

/-- The status word (R27), from bit 63 down: 0, EOPC, AUXV, KEYV, STV, 0, NR, NK, NB, ECODE, KTV, ERR, KEYED, CTX. -/
def State.status (s : State) : Word :=
  0#8 ++ s.eopc ++ flagByte s.auxv ++ flagByte s.keyv ++ flagByte s.stv ++ 0#3 ++ s.nr ++ s.nk ++ s.nb ++ s.ecode ++
    BitVec.ofBool s.ktv ++ BitVec.ofBool s.err ++ BitVec.ofBool s.keyed ++ BitVec.ofBool s.ctx

end Sys2Proof.Machine
end

