-- ==== Sys2Proof/Machine/Ops.lean ====
section
/-! DEFINITION. The named operations over the state: error entry and recovery (spec/60_exceptions.md rules R153 and
R155), the checks of the execution sequence (R152), the parameter table (spec/00_scope.md rule R7), the writes of the
register files, the loss of contents (spec/10_state.md rule R18), reset (R180) and the command port (R200). -/

namespace Sys2Proof.Machine

/-! ### Errors -/

/-- `ErrorEntry(code)` (R153): ERR, ECODE and EOPC are written and nothing else changes. EOPC comes from the word on
the port (assumption log entry 8). -/
def errorEntry (code : ErrorCode) (s : State) : State :=
  { s with err := true, ecode := code.bits, eopc := opcField s.cmd }

/-- The recovery from an error (R155, R233): ERR, ECODE and EOPC become 0 and nothing else changes. -/
def clearError (s : State) : State := { s with err := false, ecode := 0#4, eopc := 0#8 }

/-- `raise Fault(code)` (R12, R153): the command stops with the error entry. -/
def raise (code : ErrorCode) (s : State) : Result := .next (errorEntry code s)

/-- Step 2 of the execution sequence (R152): while ERR = 1 the command is ignored with no change at all (R154). -/
def unlessError (s : State) (k : Result) : Result := if s.err then .next s else k

/-- `require c else raise Fault(code)` (R152 step 3): the command goes on as `k` where the check holds. -/
def require (c : Bool) (code : ErrorCode) (s : State) (k : Result) : Result := if c then k else raise code s

/-- `require CTX = 1 else raise Fault(NO_CONTEXT)`. -/
def requireContext (s : State) (k : Result) : Result := require s.ctx .noContext s k

/-- An illegal command word (R203, R152 step 1): ILLEGAL_CMD, and ignored while ERR = 1. -/
def illegalCommand (s : State) : Result := unlessError s (raise .illegalCmd s)

/-! ### Parameters -/

/-- `(nb, nk, nr)` of the five legal parameter sets (R2, R7), and nothing for every other pair of sizes, a reserved
code among them (R204, R231). -/
def paramRow (bsz ksz : SizeCode) : Option (BitVec 4 × BitVec 4 × BitVec 5) :=
  match bsz, ksz with
  | .bits128, .bits128 => some (2#4, 2#4, 10#5)
  | .bits128, .bits256 => some (2#4, 4#4, 14#5)
  | .bits256, .bits256 => some (4#4, 4#4, 14#5)
  | .bits256, .bits512 => some (4#4, 8#4, 18#5)
  | .bits512, .bits512 => some (8#4, 8#4, 18#5)
  | _, _ => none

/-! ### Register writes -/

/-- `DOUT <- v` (R24). -/
def setDout (v : Word) (s : State) : State := { s with dout := v }

/-- `ST[w] <- v; STV[w] <- 1` (R235). -/
def loadSt (w : Nat) (v : Word) (s : State) : State :=
  { s with st := s.st.setIfInBounds w v, stv := s.stv.setIfInBounds w true }

/-- `KEY[w] <- v; KEYV[w] <- 1` (R236). -/
def loadKey (w : Nat) (v : Word) (s : State) : State :=
  { s with key := s.key.setIfInBounds w v, keyv := s.keyv.setIfInBounds w true }

/-- `AUX[w] <- v; AUXV[w] <- 1` (R237). -/
def loadAux (w : Nat) (v : Word) (s : State) : State :=
  { s with aux := s.aux.setIfInBounds w v, auxv := s.auxv.setIfInBounds w true }

/-- `ST[0..nb-1] <- b` (R11); the valid bits stay. -/
def writeSt (b : Block) (s : State) : State := { s with st := writeBlock s.st b }

/-- `KT[0..nb-1] <- b; KTV <- 1` (R131). -/
def writeKt (b : Block) (s : State) : State := { s with kt := writeBlock s.kt b, ktv := true }

/-- `RK[r][0..nb-1] <- b; RKV[r] <- 1` (R135, R136, R137). -/
def writeRk (r : Nat) (b : Block) (s : State) : State :=
  { s with rk := s.rk.setIfInBounds r (writeBlock (s.rkEntry r) b), rkv := s.rkv.setIfInBounds r true }

/-- Several round keys, written in the order listed. -/
def writeRks (keys : List (Nat × Block)) (s : State) : State := keys.foldl (fun t e => writeRk e.1 e.2 t) s

/-- The configuration fields (R25). -/
def setConfig (ctx : Bool) (nb nk : BitVec 4) (nr : BitVec 5) (s : State) : State :=
  { s with ctx := ctx, nb := nb, nk := nk, nr := nr }

/-! ### Commands on the whole state -/

/-- The checks that every command working on the state makes first: a context, then `STV[i] = 1` for all `i < nb`. -/
def requireState (s : State) (k : Result) : Result :=
  requireContext s <| require (allValid s.stv s.nb.toNat) .unwritten s k

/-- `ST[0..nb-1] <- f(ST[0..nb-1])` under the ERR gate and the checks of the state commands (R66). -/
def transformState (f : Block → Block) (s : State) : Result :=
  unlessError s <| requireState s <| .next (writeSt (f s.stBlock) s)

/-! ### Loss of contents
A word whose valid bit a command clears holds an unspecified value (R18), which the model does not choose: it is a free
value. Every operation here draws anew. -/

/-- Eight free words, at the places from `base` on. -/
@[irreducible] def freeWords (draw base : Nat) : Vector Word 8 :=
  Vector.ofFn fun i => Config.freeWord draw (base + i.val)

/-- A free round-key table, at the places from 32 on. -/
@[irreducible] def freeTable (draw : Nat) : Vector (Vector Word 8) 19 :=
  Vector.ofFn fun r => freeWords draw (32 + 8 * r.val)

/-- `STV[0..7] <- 0`: the contents of ST become unspecified (R131, R135, R137). -/
def invalidateSt (s : State) : State :=
  { s with st := freeWords s.freeDraws 0, stv := Vector.replicate 8 false, freeDraws := s.freeDraws + 1 }

/-- `KEYV[0..7] <- 0`. -/
def invalidateKey (s : State) : State :=
  { s with key := freeWords s.freeDraws 8, keyv := Vector.replicate 8 false, freeDraws := s.freeDraws + 1 }

/-- `AUXV[0..7] <- 0`. -/
def invalidateAux (s : State) : State :=
  { s with aux := freeWords s.freeDraws 16, auxv := Vector.replicate 8 false, freeDraws := s.freeDraws + 1 }

/-- `KTV <- 0`. -/
def invalidateKt (s : State) : State :=
  { s with kt := freeWords s.freeDraws 24, ktv := false, freeDraws := s.freeDraws + 1 }

/-- `RKV[0..18] <- 0`. -/
def invalidateRk (s : State) : State :=
  { s with rk := freeTable s.freeDraws, rkv := Vector.replicate 19 false, freeDraws := s.freeDraws + 1 }

/-- Every valid bit is cleared (R231, R232, R180). -/
def invalidateAll (s : State) : State := invalidateRk (invalidateKt (invalidateAux (invalidateKey (invalidateSt s))))

/-! ### Context and reset -/

/-- The words `ST[i] <- 0; STV[i] <- 1` for `i < nb` of a new context (R231). -/
def zeroSt (nb : Nat) (s : State) : State :=
  { s with
    st := writeBlock s.st (List.replicate nb 0#64)
    stv := Vector.ofFn fun i => decide (i.val < nb) || s.stv[i] }

/-- The effect of a successful CREATE (R231): any old context is lost, the parameters are set, and ST is zero. -/
def createContext (nb nk : BitVec 4) (nr : BitVec 5) (s : State) : State :=
  zeroSt nb.toNat (setConfig true nb nk nr (invalidateAll s))

/-- The effect of DESTROY (R232): no context, no valid word. -/
def destroyContext (s : State) : State := setConfig false 0#4 0#4 0#5 (invalidateAll s)

/-- Reset (R180): every flag, field, valid bit and DOUT become 0, and the contents of the register files become
unspecified. The command port belongs to the host and keeps what it holds (assumption log entry 3). A command that reset
abandons is one that was never taken (assumption log entry 12). -/
def resetCore (s : State) : State := setDout 0#64 (clearError (destroyContext s))

/-! ### The command port -/

/-- What the core takes from the command port next. -/
inductive Taken where
  /-- No event is pending: the core waits for the host (R6). -/
  | idle
  /-- The host asserts reset. -/
  | reset (s : State)
  /-- A command is on the port: CMD and DIN hold its words. -/
  | command (s : State)
deriving DecidableEq, Repr

/-- The oldest pending event is taken (R38); a command's two words stand on the port while it runs (R200). -/
def takeEvent (s : State) : Taken :=
  match s.pending with
  | [] => .idle
  | .reset :: rest => .reset { s with pending := rest }
  | .command c d :: rest => .command { s with cmd := c, din := d, pending := rest }

/-- The host issues the command word `c` with the data word `d` before everything that is pending. -/
def issueFirst (c : CmdWord) (d : Word) (s : State) : State := { s with pending := .command c d :: s.pending }

end Sys2Proof.Machine
end

