-- ==== Sys2Proof/Machine/Control.lean ====
section
/-! DEFINITION. Context control, status and error recovery: NOP, CREATE, DESTROY, CLRERR and RDSTAT
(spec/48_control.md sections 1 and 2). -/

namespace Sys2Proof.Machine

/-- NOP (R230): no state changes; it executes while ERR = 1 too. -/
def execNop (s : State) : Result := .next s

/-- CREATE (R231): INVALID_PARAMS for a pair of size codes that is no row of R7, else a new context. -/
def execCreate (ksz bsz : SizeCode) (s : State) : Result :=
  unlessError s <|
    match paramRow bsz ksz with
    | none => raise .invalidParams s
    | some (nb, nk, nr) => .next (createContext nb nk nr s)

/-- DESTROY (R232). -/
def execDestroy (s : State) : Result := unlessError s <| requireContext s <| .next (destroyContext s)

/-- CLRERR (R233); it executes while ERR = 1 too. -/
def execClrerr (s : State) : Result := .next (clearError s)

/-- RDSTAT (R234): `DOUT <- STATUS`; it executes while ERR = 1 too. -/
def execRdstat (s : State) : Result := .next (setDout s.status s)

end Sys2Proof.Machine
end

