-- ==== Sys2Proof/Machine/Multiplier.lean ====
section
/-! DEFINITION. The GF(2^8) multiplier and the command GFMUL (spec/40_gf_multiplier.md). -/

namespace Sys2Proof.Machine

/-- The reduction polynomial 0x11D = x^8+x^4+x^3+x^2+1 (R8, R40). -/
def reductionPolynomial : BitVec 9 := 0x11D#9

/-- One shift of the multiplicand (R40): `{hbit, x}` is XORed with the polynomial where `hbit` is 1. -/
def gfShift (x : Byte) : Byte := if x.getLsbD 7 then (x <<< 1) ^^^ reductionPolynomial.setWidth 8 else x <<< 1

/-- `n` turns of the bit-serial loop (R40) with accumulator `acc`, multiplicand `x` and multiplier `y`. -/
def gfLoop : Nat → (acc x y : Byte) → Byte
  | 0, acc, _, _ => acc
  | n + 1, acc, x, y => gfLoop n (if y.getLsbD 0 then acc ^^^ x else acc) (gfShift x) (y >>> 1)

/-- `gf_mul(a, b)` (R40), `a` the multiplicand and `b` the multiplier. -/
def gfMul (a b : Byte) : Byte := gfLoop 8 0#8 a b

/-- GFMUL (R41): `DOUT <- zext_64(gf_mul(A, B))`; it needs no context. -/
def execGfmul (a b : Byte) (s : State) : Result :=
  unlessError s <| .next (setDout ((gfMul a b).setWidth 64) s)

end Sys2Proof.Machine
end

