-- ==== Sys2Proof/Machine/Tables.lean ====
section
/-! DEFINITION. The default value of the parameter TABLES (decision D30): the S-boxes of spec/42_substitution.md rule
R62, the matrices of spec/44_diffusion.md rules R92 and R93, and the inverse S-boxes derived from the forward ones
(R63). The spec marks these entries as general knowledge, not in its source (assumption log entry 5). -/

namespace Sys2Proof.Machine

/-- The byte at column `col` of a printed table row of `n` bytes, column 0 leftmost. -/
def rowByte {k : Nat} (n : Nat) (row : BitVec k) (col : Nat) : Byte := row.extractLsb' (8 * (n - 1 - col)) 8

/-- The entry of a printed 16 x 16 table at the row of the high digit and the column of the low digit of `v`. -/
def tableEntry (rows : List (BitVec 128)) (v : Byte) : Byte :=
  rowByte 16 (rows.getD (v.toNat / 16) 0#128) (v.toNat % 16)

/-- The entry of a printed 8 x 8 matrix. -/
def matrixEntry (rows : List (BitVec 64)) (row col : Fin 8) : Byte := rowByte 8 (rows.getD row.val 0#64) col.val

/-- S[0] (R62), one line of the printed table to a row. -/
def sboxRows0 : List (BitVec 128) :=
  [ 0xA8435F066B756C5971DF879517F0D809#128,
    0x6DF31DCBC94D2CAF79E097FD6F4B4539#128,
    0x3EDDA34FB4B69A0E1FBF15E149D293C6#128,
    0x92729E61D163FAEEF419D5AD58A4BBA1#128,
    0xDCF2833742E47A329CCCAB4A8F6E0427#128,
    0x2EE7E25A9616232BC265660FBCA94741#128,
    0x3448FCB76A88A55386F95BDB387BC31E#128,
    0x2233242836C7B23B8E77BAF5149F0855#128,
    0x9B4CFE605CDA1846CD7D21B03F1B89FF#128,
    0xEB84693A9DD7D3706740B5DE5D3091B1#128,
    0x781101E5006898A0C502A6742D0BA276#128,
    0xB3BECEBDAEE98A311CECF19994AAF626#128,
    0x2FEFE88C3503D47FFB05C15E90203D82#128,
    0xF7EA0A0D7EF8501AC40757B83C62E3C8#128,
    0xAC526410D0D9130C122951B9CFD6738D#128,
    0x8154C0ED4E44A72A8525E6CA7C8B5680#128 ]

/-- S[1] (R62), one line of the printed table to a row. -/
def sboxRows1 : List (BitVec 128) :=
  [ 0xCEBBEB92EACB13C1E93AD6B2D29017F8#128,
    0x421556B4651C8843C55C36BAF557678D#128,
    0x31F664589EF422AA750F02B1DF6D734D#128,
    0x7C262EF7085D443E9F14C8AE5410D8BC#128,
    0x1A6B69F3BD33ABFAD19B684E169591EE#128,
    0x4C638E5BCC3C19A181497BD96F3760CA#128,
    0xE72B48FD9645FC41120D79E5898CE320#128,
    0x30DCB76C4AB53F97D4622D06A4A5835F#128,
    0x2ADAC9007EA255BF11D59CCF0E0A3D51#128,
    0x7D931BFEC44709860B8F9D6A07B9B098#128,
    0x1832714BEF3B70A0E440FFC3A9E678F9#128,
    0x8B46801E38E1B8A8E00C23761D252405#128,
    0xF16E94289A84E8A34F77D385E252F282#128,
    0x507A2F7453B361AF3935DECD1F99ACAD#128,
    0x722CDDD087BE5EA6EC04C60334FBDB59#128,
    0xB6C201F05AEDA766217F8A27C7C029D7#128 ]

/-- S[2] (R62), one line of the printed table to a row. -/
def sboxRows2 : List (BitVec 128) :=
  [ 0x93D99AB5982245FCBA6ADF029FDC5159#128,
    0x4A172BC294F4BBA362E471D4CD7016E1#128,
    0x493CC0D85C9BAD8553A17AC82DE0D172#128,
    0xA62CC4E37678B7B4093B0E414CDEB290#128,
    0x25A5D7031100C32E92EF4E129D7DCB35#128,
    0x10D54F9E4DA955C6D07B1897D336E648#128,
    0x56818F77CC9CB9E2ACB82F15A47CDA38#128,
    0x1E0B05D6146E6C7E66FDB1E560AF5E33#128,
    0x87C9F05D6D3F888DC7F71DE9ECED8029#128,
    0x27CF99A8500F3724283095D23E5B4083#128,
    0xB369571F071C8ABC20EBCE8EABEE31A2#128,
    0x73F9CA3A1AFB0DC1FEFAF26FBD96DD43#128,
    0x52B608F3AEBE19893226B0EA4B648482#128,
    0x6BF579BF015F75631B233D682A65E891#128,
    0xF6FF1358F1470A7FC5A7E7615A064644#128,
    0x4204A0DB398654AA8C34218BF80C7467#128 ]

/-- S[3] (R62), one line of the printed table to a row. -/
def sboxRows3 : List (BitVec 128) :=
  [ 0x688DCA4D734B4E2AD45226B3541E191F#128,
    0x2203463D2D4A5383138AB7D52579F5BD#128,
    0x582F0D02ED519E11F23E555ED1163C66#128,
    0x705DF34540CCE8945608CE1A3AD2E1DF#128,
    0xB5386E0EE5F4F986E94FD68523CF3299#128,
    0x3114AEEEC848D330A19241B118C42C71#128,
    0x724415FD37BE5FAA9B88D8AB899CFA60#128,
    0xEABC620C24A6A8EC6720DB7C28DDAC5B#128,
    0x347E10F17B8F63A0059A437721BF2709#128,
    0xC39FB6D729C2EBC0A48B8C1DFBFFC1B2#128,
    0x972EF865F67507044933E4D9B9D042C7#128,
    0x6C90008E6F5001C5DA473FCD69A2E27A#128,
    0xA7C6930F0A06E62B96A31CAF6A128439#128,
    0xE7B082F7FE9D875C8135DEB4A5FC80EF#128,
    0xCBBB6B76BA5A7D780B95E3AD74983B36#128,
    0x646DDCF059A94C177F91B8C9571BE061#128 ]

/-- MDS (R92), one printed line to a row. -/
def mdsRows : List (BitVec 64) :=
  [ 0x0101050108060704#64,
    0x0401010501080607#64,
    0x0704010105010806#64,
    0x0607040101050108#64,
    0x0806070401010501#64,
    0x0108060704010105#64,
    0x0501080607040101#64,
    0x0105010806070401#64 ]

/-- MDS_INV (R93), one printed line to a row. -/
def mdsInvRows : List (BitVec 64) :=
  [ 0xAD9576A82F49D7CA#64,
    0xCAAD9576A82F49D7#64,
    0xD7CAAD9576A82F49#64,
    0x49D7CAAD9576A82F#64,
    0x2F49D7CAAD9576A8#64,
    0xA82F49D7CAAD9576#64,
    0x76A82F49D7CAAD95#64,
    0x9576A82F49D7CAAD#64 ]

/-- The rows of S[t]. -/
def sboxRows (t : Fin 4) : List (BitVec 128) :=
  match t with
  | 0 => sboxRows0
  | 1 => sboxRows1
  | 2 => sboxRows2
  | 3 => sboxRows3

/-- TABLES at its default value (D30): the constants the core holds, which no command and no reset changes (R28). -/
def tables : Config.Tables where
  sbox t v := tableEntry (sboxRows t) v
  mds row b := matrixEntry mdsRows row b
  mdsInv row b := matrixEntry mdsInvRows row b

/-- The least of the bytes `256-n .. 255` that `f` takes to `v`; 0 if there is none. -/
def findPreimage (f : Byte → Byte) (v : Byte) : Nat → Byte
  | 0 => 0#8
  | n + 1 =>
    if f (BitVec.ofNat 8 (255 - n)) = v then BitVec.ofNat 8 (255 - n) else findPreimage f v n

/-- `SI[t][v]` (R63): the byte that S[t] takes to `v`. -/
def sboxInv (T : Config.Tables) (t : Fin 4) (v : Byte) : Byte := findPreimage (T.sbox t) v 256

end Sys2Proof.Machine
end

