-- ==== Sys2Proof/Machine/Substitution.lean ====
section
/-! DEFINITION. The substitution layer and the commands SBOX, ISBOX, SUBB and ISUBB (spec/42_substitution.md). -/

namespace Sys2Proof.Machine

/-- The word whose byte `j` is byte `j` of `w` looked up in table `j mod 4` of `f` (R60, R61). -/
def substituteWord (f : Fin 4 → Byte → Byte) (w : Word) : Word := ofBytes fun j => f (Fin.ofNat 4 j) (byteOf w j)

/-- `SubBytes(V)` (R60). -/
def subBytes (T : Config.Tables) (v : Block) : Block := v.map (substituteWord T.sbox)

/-- `InvSubBytes(V)` (R61). -/
def invSubBytes (T : Config.Tables) (v : Block) : Block := v.map (substituteWord (sboxInv T))

/-- SBOX (R64): `DOUT <- zext_64(S[T][DIN[7:0]])`; it needs no context. -/
def execSbox (t : Fin 4) (s : State) : Result :=
  unlessError s <| .next (setDout ((tables.sbox t s.dinByte).setWidth 64) s)

/-- ISBOX (R65): `DOUT <- zext_64(SI[T][DIN[7:0]])`; it needs no context. -/
def execIsbox (t : Fin 4) (s : State) : Result :=
  unlessError s <| .next (setDout ((sboxInv tables t s.dinByte).setWidth 64) s)

/-- SUBB (R66). -/
def execSubb (s : State) : Result := transformState (subBytes tables) s

/-- ISUBB (R67). -/
def execIsubb (s : State) : Result := transformState (invSubBytes tables) s

end Sys2Proof.Machine
end

