-- ==== Sys2Proof/Machine/Diffusion.lean ====
section
/-! DEFINITION. The diffusion layer and the commands MIXCOL and IMIXCOL (spec/44_diffusion.md). -/

namespace Sys2Proof.Machine

/-- `out[row] = XOR over b in 0..7 of gf_mul(in[b], M[row][b])` for the column `w` (R90). -/
def columnByte (m : Fin 8 → Fin 8 → Byte) (w : Word) (row : Nat) : Byte :=
  (List.finRange 8).foldl (fun acc b => acc ^^^ gfMul (byteOf w b.val) (m (Fin.ofNat 8 row) b)) 0#8

/-- One column times the matrix `m` (R90). -/
def mixColumn (m : Fin 8 → Fin 8 → Byte) (w : Word) : Word := ofBytes (columnByte m w)

/-- `MixColumns(V)` (R90). -/
def mixColumns (T : Config.Tables) (v : Block) : Block := v.map (mixColumn T.mds)

/-- `InvMixColumns(V)` (R91). -/
def invMixColumns (T : Config.Tables) (v : Block) : Block := v.map (mixColumn T.mdsInv)

/-- MIXCOL (R94). -/
def execMixcol (s : State) : Result := transformState (mixColumns tables) s

/-- IMIXCOL (R95). -/
def execImixcol (s : State) : Result := transformState (invMixColumns tables) s

end Sys2Proof.Machine
end

