-- ==== Sys2Proof/Machine/KeyInjection.lean ====
section
/-! DEFINITION. The word-wise operators and the commands ADDRK, SUBRK, XORRK, ADDX and XORX
(spec/45_key_injection.md). -/

namespace Sys2Proof.Machine

/-- `AddW(V, K)` (R100): word-wise sum modulo 2^64. -/
def addW (v k : Block) : Block := List.zipWith (· + ·) v k

/-- `SubW(V, K)` (R100): word-wise difference modulo 2^64. -/
def subW (v k : Block) : Block := List.zipWith (· - ·) v k

/-- `XorW(V, K)` (R100): word-wise exclusive or. -/
def xorW (v k : Block) : Block := List.zipWith (· ^^^ ·) v k

/-- `ST[0..nb-1] <- op(ST[0..nb-1], RK[R][0..nb-1])` under the ERR gate and the checks of R101. -/
def injectRoundKey (op : Block → Block → Block) (r : Nat) (s : State) : Result :=
  unlessError s <| requireContext s <| require (r ≤ s.nr.toNat) .indexRange s <|
    require (allValid s.stv s.nb.toNat) .unwritten s <| require (flagAt s.rkv r) .unwritten s <|
      .next (writeSt (op s.stBlock (s.roundKey r)) s)

/-- `ST[0..nb-1] <- op(ST[0..nb-1], AUX[0..nb-1])` under the ERR gate and the checks of R104. -/
def injectAux (op : Block → Block → Block) (s : State) : Result :=
  unlessError s <| requireState s <| require (allValid s.auxv s.nb.toNat) .unwritten s <|
    .next (writeSt (op s.stBlock s.auxBlock) s)

/-- ADDRK (R101). -/
def execAddrk (r : Nat) (s : State) : Result := injectRoundKey addW r s

/-- SUBRK (R102). -/
def execSubrk (r : Nat) (s : State) : Result := injectRoundKey subW r s

/-- XORRK (R103). -/
def execXorrk (r : Nat) (s : State) : Result := injectRoundKey xorW r s

/-- ADDX (R104). -/
def execAddx (s : State) : Result := injectAux addW s

/-- XORX (R105). -/
def execXorx (s : State) : Result := injectAux xorW s

end Sys2Proof.Machine
end

