-- ==== Sys2Proof/Machine/RowShift.lean ====
section
/-! DEFINITION. The row-shift layer and the commands SHROW and ISHROW (spec/43_row_shift.md). -/

namespace Sys2Proof.Machine

/-- `s(r) = floor(r / (8 / nb))` (R80). -/
def rowShift (nb r : Nat) : Nat := r / (8 / nb)

/-- The vector of `nb` words whose byte in row `r`, column `c` is the byte of `v` in the same row, column
`src nb c (s(r))` (R80, R81: only columns move). -/
def moveColumns (src : (nb c shift : Nat) → Nat) (v : Block) : Block :=
  (List.range v.length).map fun c =>
    ofBytes fun r => byteOf (v.getD (src v.length c (rowShift v.length r)) 0#64) r

/-- `ShiftRows(V)` (R80): `byte(W[c], r) = byte(V[(c - s(r)) mod nb], r)`, that is, the byte in column `c` moves to
column `(c + s(r)) mod nb` (conflict C1). -/
def shiftRows (v : Block) : Block := moveColumns (fun nb c shift => (c + nb - shift) % nb) v

/-- `InvShiftRows(V)` (R81): `byte(W[c], r) = byte(V[(c + s(r)) mod nb], r)`. -/
def invShiftRows (v : Block) : Block := moveColumns (fun nb c shift => (c + shift) % nb) v

/-- SHROW (R82). -/
def execShrow (s : State) : Result := transformState shiftRows s

/-- ISHROW (R83). -/
def execIshrow (s : State) : Result := transformState invShiftRows s

end Sys2Proof.Machine
end

