-- ==== Sys2Proof/Machine/Round.lean ====
section
/-! DEFINITION. The rounds, the full block transform and the commands EROUND, DROUND, ENC and DEC
(spec/46_round.md). -/

namespace Sys2Proof.Machine

/-- `EncRound(V) = MixColumns(ShiftRows(SubBytes(V)))` (R110). -/
def encRound (T : Config.Tables) (v : Block) : Block := mixColumns T (shiftRows (subBytes T v))

/-- `DecRound(V) = InvSubBytes(InvShiftRows(InvMixColumns(V)))` (R111). -/
def decRound (T : Config.Tables) (v : Block) : Block := invSubBytes T (invShiftRows (invMixColumns T v))

/-- The inner rounds `1 .. nr-1` (R114). -/
def innerRounds (nr : Nat) : List Nat := List.range' 1 (nr - 1)

/-- `Encipher(P)` (R114) under the round keys `rk` and round count `nr`. -/
def encipher (T : Config.Tables) (rk : Nat → Block) (nr : Nat) (p : Block) : Block :=
  let s := (innerRounds nr).foldl (fun s round => xorW (encRound T s) (rk round)) (addW p (rk 0))
  addW (encRound T s) (rk nr)

/-- `Decipher(C)` (R115): the inner rounds descend. -/
def decipher (T : Config.Tables) (rk : Nat → Block) (nr : Nat) (c : Block) : Block :=
  let s := (innerRounds nr).reverse.foldl (fun s round => xorW (decRound T s) (rk round)) (subW c (rk nr))
  subW (decRound T s) (rk 0)

/-- `ST[0..nb-1] <- f(ST[0..nb-1])` under the ERR gate and the checks of R116: a loaded state, and a complete
round-key table. -/
def transformBlock (f : (rk : Nat → Block) → (nr : Nat) → Block → Block) (s : State) : Result :=
  unlessError s <| requireState s <| require s.rkComplete .unwritten s <|
    .next (writeSt (f s.roundKey s.nr.toNat s.stBlock) s)

/-- EROUND (R112). -/
def execEround (s : State) : Result := transformState (encRound tables) s

/-- DROUND (R113). -/
def execDround (s : State) : Result := transformState (decRound tables) s

/-- ENC (R116). -/
def execEnc (s : State) : Result := transformBlock (encipher tables) s

/-- DEC (R117). -/
def execDec (s : State) : Result := transformBlock (decipher tables) s

end Sys2Proof.Machine
end

