-- ==== Sys2Proof/Machine/KeySchedule.lean ====
section
/-! DEFINITION. The key-schedule engine and the commands KTGEN, EVENKEYS, ODDKEYS and EXPAND
(spec/47_key_schedule.md). -/

namespace Sys2Proof.Machine

/-! ### Step 1: Kt -/

/-- The sequence that Kt and the even round keys share (R130, R132): Add, round, Xor, round, Add. -/
def twoRounds (T : Config.Tables) (kAdd kXor : Block) (s : Block) : Block :=
  addW (encRound T (xorW (encRound T (addW s kAdd)) kXor)) kAdd

/-- The seed of KtGen (R130): word 0 is `nb + nk + 1`, the others are 0. -/
def ktSeed (nb nk : Nat) : Block := BitVec.ofNat 64 (nb + nk + 1) :: List.replicate (nb - 1) 0#64

/-- `KtGen(KEY)` (R130). -/
def ktGen (T : Config.Tables) (nb nk : Nat) (key : Block) : Block :=
  let k0 := key.take nb
  let k1 := if nk = 2 * nb then (key.drop nb).take nb else k0
  encRound T (twoRounds T k0 k1 (ktSeed nb nk))

/-! ### Step 2: the even round keys -/

/-- `Derive(slice, tmv)` (R132). -/
def derive (T : Config.Tables) (kt slice tmv : Block) : Block :=
  let tweak := addW kt tmv
  twoRounds T tweak tweak slice

/-- `tmv` before the first derivation (R132). -/
def tmvInit (nb : Nat) : Block := List.replicate nb 0x0001000100010001#64

/-- `tmv[i] <- tmv[i] << 1` (R132). -/
def tmvShift (tmv : Block) : Block := tmv.map fun w : Word => w <<< 1

/-- `wk[j] <- wk[(j + 1) mod nk]` (R132). -/
def rotateWords : Block → Block
  | [] => []
  | w :: ws => ws ++ [w]

/-- The loop of EvenKeys (R132), which answers the entries in the order it computes them. Each turn raises `idx`, so
`fuel` turns are enough once `fuel` is over half of `nr` (assumption log entry 11). -/
def evenLoop (T : Config.Tables) (kt : Block) (nb nk nr : Nat) :
    (fuel idx : Nat) → (tmv wk : Block) → List (Nat × Block)
  | 0, _, _, _ => []
  | fuel + 1, idx, tmv, wk =>
    let first := (idx, derive T kt (wk.take nb) tmv)
    if idx = nr then [first]
    else if nk = 2 * nb then
      let tmv' := tmvShift tmv
      let second := (idx + 2, derive T kt ((wk.drop nb).take nb) tmv')
      if idx + 2 = nr then [first, second]
      else first :: second :: evenLoop T kt nb nk nr fuel (idx + 4) (tmvShift tmv') (rotateWords wk)
    else first :: evenLoop T kt nb nk nr fuel (idx + 2) (tmvShift tmv) (rotateWords wk)

/-- `EvenKeys(KEY, Kt)` (R132): the round keys at 0, 2, ..., nr, each with its index. -/
def evenKeys (T : Config.Tables) (nb nk nr : Nat) (key kt : Block) : List (Nat × Block) :=
  evenLoop T kt nb nk nr (nr / 2 + 1) 0 (tmvInit nb) key

/-! ### Step 3: the odd round keys -/

/-- A byte sequence rotated left by `k` (R134): byte `k` becomes byte 0. -/
def rotateBytes (k : Nat) (b : List Byte) : List Byte :=
  (List.range b.length).map fun j => b.getD ((j + k) % b.length) 0#8

/-- The odd round key made from the even one before it (R134): its bytes rotated left by `2*nb + 3`. -/
def oddKey (nb : Nat) (even : Block) : Block := words (rotateBytes (2 * nb + 3) (bytes even))

/-- The odd indices `1, 3, ..., nr-1`. -/
def oddIndices (nr : Nat) : List Nat := (List.range (nr / 2)).map fun m => 2 * m + 1

/-- `OddKeys(RK)` (R134): the round keys at 1, 3, ..., nr-1, each with its index. -/
def oddKeys (nb nr : Nat) (rk : Nat → Block) : List (Nat × Block) :=
  (oddIndices nr).map fun i => (i, oddKey nb (rk (i - 1)))

/-- The block listed for index `r`. -/
def lookupKey (keys : List (Nat × Block)) (r : Nat) : Block := (keys.lookup r).getD []

/-! ### Commands -/

/-- `KEYV[i] = 1` for all `i < nk` (R131). -/
def requireKey (s : State) (k : Result) : Result := require (allValid s.keyv s.nk.toNat) .unwritten s k

/-- Kt of the key that KEY holds. -/
def State.ktOfKey (s : State) : Block := ktGen tables s.nb.toNat s.nk.toNat s.keyBlock

/-- The even round keys of the key that KEY holds, under a given Kt. -/
def State.evenKeysWith (s : State) (kt : Block) : List (Nat × Block) :=
  evenKeys tables s.nb.toNat s.nk.toNat s.nr.toNat s.keyBlock kt

/-- The effect of KTGEN (R131). ST served as the working state, so its contents are lost. -/
def ktgenEffect (s : State) : State := invalidateSt (writeKt s.ktOfKey s)

/-- The effect of EVENKEYS (R135): every earlier round key is lost, the even ones are written, ST is lost. -/
def evenkeysEffect (s : State) : State := invalidateSt (writeRks (s.evenKeysWith s.ktBlock) (invalidateRk s))

/-- The effect of ODDKEYS (R136): all reads come before all writes (R36). -/
def oddkeysEffect (s : State) : State := writeRks (oddKeys s.nb.toNat s.nr.toNat s.roundKey) s

/-- The effect of EXPAND (R137): Kt, then every round key `0..nr`, and no other entry stays valid. -/
def expandEffect (s : State) : State :=
  let kt := s.ktOfKey
  let even := s.evenKeysWith kt
  let odd := oddKeys s.nb.toNat s.nr.toNat (lookupKey even)
  invalidateSt (writeRks odd (writeRks even (invalidateRk (writeKt kt s))))

/-- KTGEN (R131). -/
def execKtgen (s : State) : Result := unlessError s <| requireContext s <| requireKey s <| .next (ktgenEffect s)

/-- EVENKEYS (R135). -/
def execEvenkeys (s : State) : Result :=
  unlessError s <| requireContext s <| requireKey s <| require s.ktv .unwritten s <| .next (evenkeysEffect s)

/-- ODDKEYS (R136): every even key `0..nr-2` must be valid; RK[nr] need not be. -/
def execOddkeys (s : State) : Result :=
  unlessError s <| requireContext s <|
    require ((oddIndices s.nr.toNat).all fun i => flagAt s.rkv (i - 1)) .unwritten s <| .next (oddkeysEffect s)

/-- EXPAND (R137); it does not require KTV. -/
def execExpand (s : State) : Result := unlessError s <| requireContext s <| requireKey s <| .next (expandEffect s)

end Sys2Proof.Machine
end

