-- ==== Sys2Proof/Machine/Ports.lean ====
section
/-! DEFINITION. The data-port commands: LDST, LDKEY, LDAUX, RDST, RDRK and RDKT (spec/48_control.md sections 3 and
4). -/

namespace Sys2Proof.Machine

/-- `W < n else raise Fault(INDEX_RANGE)` (R204). -/
def requireWord (w : Nat) (n : BitVec 4) (s : State) (k : Result) : Result :=
  require (w < n.toNat) .indexRange s k

/-- LDST (R235). -/
def execLdst (w : Nat) (s : State) : Result :=
  unlessError s <| requireContext s <| requireWord w s.nb s <| .next (loadSt w s.din s)

/-- LDKEY (R236): Kt no longer belongs to the key, so KTV is cleared. -/
def execLdkey (w : Nat) (s : State) : Result :=
  unlessError s <| requireContext s <| requireWord w s.nk s <| .next (invalidateKt (loadKey w s.din s))

/-- LDAUX (R237). -/
def execLdaux (w : Nat) (s : State) : Result :=
  unlessError s <| requireContext s <| requireWord w s.nb s <| .next (loadAux w s.din s)

/-- RDST (R238). -/
def execRdst (w : Nat) (s : State) : Result :=
  unlessError s <| requireContext s <| requireWord w s.nb s <| require (flagAt s.stv w) .unwritten s <|
    .next (setDout (wordAt s.st w) s)

/-- RDRK (R239): the round index is checked before the word index. -/
def execRdrk (r w : Nat) (s : State) : Result :=
  unlessError s <| requireContext s <| require (r ≤ s.nr.toNat) .indexRange s <| requireWord w s.nb s <|
    require (flagAt s.rkv r) .unwritten s <| .next (setDout (wordAt (s.rkEntry r) w) s)

/-- RDKT (R240). -/
def execRdkt (w : Nat) (s : State) : Result :=
  unlessError s <| requireContext s <| requireWord w s.nb s <| require s.ktv .unwritten s <|
    .next (setDout (wordAt s.kt w) s)

end Sys2Proof.Machine
end

