-- ==== Sys2Proof/Machine/Dispatch.lean ====
section
/-! DEFINITION. The dispatch: one arm per command, each a direct call of its meaning. -/

namespace Sys2Proof.Machine

def exec (i : Instr) (s : State) : Host.Outcome State Fault Refusal :=
  match i with
  | .nop => Sys2Proof.Machine.execNop s
  | .create ksz bsz => Sys2Proof.Machine.execCreate ksz bsz s
  | .destroy => Sys2Proof.Machine.execDestroy s
  | .clrerr => Sys2Proof.Machine.execClrerr s
  | .rdstat => Sys2Proof.Machine.execRdstat s
  | .ldst w => Sys2Proof.Machine.execLdst w s
  | .ldkey w => Sys2Proof.Machine.execLdkey w s
  | .ldaux w => Sys2Proof.Machine.execLdaux w s
  | .rdst w => Sys2Proof.Machine.execRdst w s
  | .rdrk r w => Sys2Proof.Machine.execRdrk r w s
  | .rdkt w => Sys2Proof.Machine.execRdkt w s
  | .gfmul a b => Sys2Proof.Machine.execGfmul a b s
  | .sbox t => Sys2Proof.Machine.execSbox t s
  | .isbox t => Sys2Proof.Machine.execIsbox t s
  | .subb => Sys2Proof.Machine.execSubb s
  | .isubb => Sys2Proof.Machine.execIsubb s
  | .shrow => Sys2Proof.Machine.execShrow s
  | .ishrow => Sys2Proof.Machine.execIshrow s
  | .mixcol => Sys2Proof.Machine.execMixcol s
  | .imixcol => Sys2Proof.Machine.execImixcol s
  | .eround => Sys2Proof.Machine.execEround s
  | .dround => Sys2Proof.Machine.execDround s
  | .addrk r => Sys2Proof.Machine.execAddrk r s
  | .subrk r => Sys2Proof.Machine.execSubrk r s
  | .xorrk r => Sys2Proof.Machine.execXorrk r s
  | .addx => Sys2Proof.Machine.execAddx s
  | .xorx => Sys2Proof.Machine.execXorx s
  | .ktgen => Sys2Proof.Machine.execKtgen s
  | .evenkeys => Sys2Proof.Machine.execEvenkeys s
  | .oddkeys => Sys2Proof.Machine.execOddkeys s
  | .expand => Sys2Proof.Machine.execExpand s
  | .enc => Sys2Proof.Machine.execEnc s
  | .dec => Sys2Proof.Machine.execDec s

end Sys2Proof.Machine
end

