-- ==== Sys2Proof/Machine/Transact.lean ====
section
/-! DEFINITION. One transaction at the command port (spec/30_encoding.md rules R200 and R203, spec/60_exceptions.md
rule R152). -/

namespace Sys2Proof.Machine

/-- The command whose words stand on the port is decoded and executed, or is illegal (R152 steps 1 to 4). -/
def executePort (s : State) : Result :=
  match decode s.cmd with
  | .ok i => exec i s
  | .error _ => illegalCommand s

/-- The core takes the host's next event and completes it (R6, R38); with none pending it waits, unchanged. -/
def transact (s : State) : Result :=
  match takeEvent s with
  | .idle => .next s
  | .reset t => .next (resetCore t)
  | .command t => executePort t

/-- The word of an opcode-table row is the next command the host issues; DIN is what the port holds. -/
def presentWord (s : State) (nbits w : Nat) : State := issueFirst (BitVec.ofNat 32 (w % 2 ^ nbits)) s.din s

end Sys2Proof.Machine
end

