-- ==== Sys2Proof/Machine/Step.lean ====
section
/-! DEFINITION. The step of the machine: one event at the command port (spec/00_scope.md rule R6). -/

namespace Sys2Proof.Machine

/-- One step: one transaction with the host. -/
def step (s : State) : Host.Outcome State Fault Refusal := transact s

/-- `s` with the instruction whose low `nbits` bits are `w` as the command that the very next step takes (assumption
log entry 4). -/
def State.withFetchWord (s : State) (nbits w : Nat) : State := presentWord s nbits w

end Sys2Proof.Machine
end

