-- ==== Sys2Proof/Machine/Assembler.lean ====
section
/-! DEFINITION. The assembly language (spec/30_encoding.md rules R206 and R207): the text of a line, the transaction it
assembles to, and the expansion of the pseudo-commands. The core never sees any of it; a host writes programs in it.
Lines are printed, not parsed (assumption log entry 9). -/

namespace Sys2Proof.Machine

/-- The mnemonic of a command (R205). -/
def mnemonic : Instr → String
  | .nop => "NOP" | .create _ _ => "CREATE" | .destroy => "DESTROY" | .clrerr => "CLRERR" | .rdstat => "RDSTAT"
  | .ldst _ => "LDST" | .ldkey _ => "LDKEY" | .ldaux _ => "LDAUX"
  | .rdst _ => "RDST" | .rdrk _ _ => "RDRK" | .rdkt _ => "RDKT"
  | .gfmul _ _ => "GFMUL" | .sbox _ => "SBOX" | .isbox _ => "ISBOX"
  | .subb => "SUBB" | .isubb => "ISUBB" | .shrow => "SHROW" | .ishrow => "ISHROW"
  | .mixcol => "MIXCOL" | .imixcol => "IMIXCOL" | .eround => "EROUND" | .dround => "DROUND"
  | .addrk _ => "ADDRK" | .subrk _ => "SUBRK" | .xorrk _ => "XORRK" | .addx => "ADDX" | .xorx => "XORX"
  | .ktgen => "KTGEN" | .evenkeys => "EVENKEYS" | .oddkeys => "ODDKEYS" | .expand => "EXPAND"
  | .enc => "ENC" | .dec => "DEC"

/-- The bits of a size, as written in `CREATE b<bits>, k<bits>` (R206); the reserved code cannot be written. -/
def sizeText : SizeCode → Option String
  | .bits128 => some "128"
  | .bits256 => some "256"
  | .bits512 => some "512"
  | .reserved => none

/-- The operands of a line before `din` (R206), numbers in decimal. -/
def operandTexts : Instr → Option (List String)
  | .create ksz bsz => do
    let b ← sizeText bsz
    let k ← sizeText ksz
    pure ["b" ++ b, "k" ++ k]
  | .ldst w | .ldkey w | .ldaux w | .rdst w | .rdkt w => some [toString w]
  | .rdrk r w => some [toString r, toString w]
  | .gfmul a b => some [toString a.toNat, toString b.toNat]
  | .sbox t | .isbox t => some [toString t.val]
  | .addrk r | .subrk r | .xorrk r => some [toString r]
  | .nop | .destroy | .clrerr | .rdstat | .subb | .isubb | .shrow | .ishrow | .mixcol | .imixcol | .eround | .dround
  | .addx | .xorx | .ktgen | .evenkeys | .oddkeys | .expand | .enc | .dec => some []

/-- The commands whose line ends with a `din` operand (R206). -/
def takesDin : Instr → Bool
  | .ldst _ | .ldkey _ | .ldaux _ | .sbox _ | .isbox _ => true
  | .nop | .create _ _ | .destroy | .clrerr | .rdstat | .rdst _ | .rdrk _ _ | .rdkt _ | .gfmul _ _ | .subb | .isubb
  | .shrow | .ishrow | .mixcol | .imixcol | .eround | .dround | .addrk _ | .subrk _ | .xorrk _ | .addx | .xorx
  | .ktgen | .evenkeys | .oddkeys | .expand | .enc | .dec => false

/-- The line `MNEMONIC operands` (R206), if the command can be written. -/
def lineText (i : Instr) (din : Word) : Option String := do
  let ops ← operandTexts i
  let all := if takesDin i then ops ++ [toString din.toNat] else ops
  pure (if all.isEmpty then mnemonic i else mnemonic i ++ " " ++ ", ".intercalate all)

/-- The transaction a line assembles to (R206): a command without a `din` operand is issued with DIN = 0. -/
def assembleLine (i : Instr) (din : Word) : HostEvent := .command (encode i) (if takesDin i then din else 0#64)

/-- The pseudo-commands (R207), with the values they are written with. -/
inductive Pseudo where
  | ldstv (v : Block)
  | ldkeyv (k : Block)
  | ldauxv (a : Block)
  | rdstv
  | rdrkv (r : Nat)
  | encblk (v : Block)
  | decblk (v : Block)
deriving DecidableEq, Repr

/-- One loading command a word, in order of the words. -/
def loadLines (mk : Nat → Instr) (v : Block) : List HostEvent := v.zipIdx.map fun e => assembleLine (mk e.2) e.1

/-- One reading command a word, for the words `0..n-1`. -/
def readLines (mk : Nat → Instr) (n : Nat) : List HostEvent := (List.range n).map fun i => assembleLine (mk i) 0#64

/-- The sequence a pseudo-command stands for under a context with `nb` words to a block (R207). -/
def expandPseudo (nb : Nat) : Pseudo → List HostEvent
  | .ldstv v => loadLines .ldst v
  | .ldkeyv k => loadLines .ldkey k
  | .ldauxv a => loadLines .ldaux a
  | .rdstv => readLines .rdst nb
  | .rdrkv r => readLines (.rdrk r) nb
  | .encblk v => loadLines .ldst v ++ [assembleLine .enc 0#64] ++ readLines .rdst nb
  | .decblk v => loadLines .ldst v ++ [assembleLine .dec 0#64] ++ readLines .rdst nb

end Sys2Proof.Machine
end

