-- ==== Sys2Proof/Safety.lean ====
section
/-! DEFINITION. The terms in which claims about the machine are stated: the configurations and valid bits that reached
states have (spec/10_state.md rules R17, R18, R25, R26), what a command reads and which error it answers with
(spec/60_exceptions.md rules R150 and R152), sequences of commands, and states that no command can tell apart (R18). -/

namespace Sys2Proof.Machine

/-! ### Command words on the port -/

/-- The state in which the oldest pending event, a command with words `c` and `d`, stands on the port, and `rest` is
pending after it (R200). -/
abbrev State.withPort (s : State) (c : CmdWord) (d : Word) (rest : List HostEvent) : State :=
  { s with cmd := c, din := d, pending := rest }

/-- The state an error entry leaves (R153), spelled out. -/
abbrev State.faulted (s : State) (code : ErrorCode) : State :=
  { s with err := true, ecode := code.bits, eopc := s.cmd.extractLsb' 24 8 }

/-! ### Invariants -/

/-- `(nb, nk, nr)` of the five legal parameter sets, as R7 lists them. -/
def legalRows : List (BitVec 4 × BitVec 4 × BitVec 5) :=
  [(2#4, 2#4, 10#5), (2#4, 4#4, 14#5), (4#4, 4#4, 14#5), (4#4, 8#4, 18#5), (8#4, 8#4, 18#5)]

/-- NB, NK and NR hold a legal row while a context exists, and 0 while none does (R25). -/
abbrev State.LegalConfig (s : State) : Prop :=
  (s.ctx = true → (s.nb, s.nk, s.nr) ∈ legalRows) ∧ (s.ctx = false → s.nb = 0#4 ∧ s.nk = 0#4 ∧ s.nr = 0#5)

/-- Only words and entries that exist in the context are valid (R17, R18), and none is without a context. -/
abbrev State.ValidInRange (s : State) : Prop :=
  (∀ i : Fin 8, s.stv[i] = true → i.val < s.nb.toNat) ∧ (∀ i : Fin 8, s.keyv[i] = true → i.val < s.nk.toNat) ∧
    (∀ i : Fin 8, s.auxv[i] = true → i.val < s.nb.toNat) ∧ (s.ktv = true → s.ctx = true) ∧
    (∀ r : Fin 19, s.rkv[r] = true → s.ctx = true ∧ r.val ≤ s.nr.toNat)

/-- ECODE and EOPC are 0 while ERR = 0 (R26, R150), and ECODE is a code that commands raise while ERR = 1. -/
abbrev State.ErrorFieldsAgree (s : State) : Prop :=
  (s.err = false → s.ecode = 0#4 ∧ s.eopc = 0#8) ∧ (s.err = true → s.ecode ∈ [1#4, 3#4, 4#4, 5#4, 6#4])

/-- What every reached state satisfies. -/
abbrev State.Inv (s : State) : Prop := s.LegalConfig ∧ s.ValidInRange ∧ s.ErrorFieldsAgree

/-- A valid Kt is the Kt of the key that KEY holds, whose words are all valid (R22). -/
def State.KtBelongsToKey (s : State) : Prop :=
  s.ktv = true → allValid s.keyv s.nk.toNat = true ∧ s.ktBlock = ktGen tables s.nb.toNat s.nk.toNat s.keyBlock

/-- A valid odd round key is made from the valid even round key before it (R134, R135). -/
def State.OddKeysBelongToEvenKeys (s : State) : Prop :=
  ∀ m, flagAt s.rkv (2 * m + 1) = true →
    flagAt s.rkv (2 * m) = true ∧ s.roundKey (2 * m + 1) = oddKey s.nb.toNat (s.roundKey (2 * m))

/-! ### Conditions under which commands complete -/

/-- No error is pending and a legal context exists. -/
abbrev State.Ready (s : State) : Prop := s.err = false ∧ s.ctx = true ∧ (s.nb, s.nk, s.nr) ∈ legalRows

/-- The state is loaded: `STV[i] = 1` for all `i < nb`. -/
abbrev State.StLoaded (s : State) : Prop := ∀ i < s.nb.toNat, flagAt s.stv i = true

/-- The auxiliary operand is loaded: `AUXV[i] = 1` for all `i < nb`. -/
abbrev State.AuxLoaded (s : State) : Prop := ∀ i < s.nb.toNat, flagAt s.auxv i = true

/-- The key is loaded: `KEYV[i] = 1` for all `i < nk`. -/
abbrev State.KeyLoaded (s : State) : Prop := ∀ i < s.nk.toNat, flagAt s.keyv i = true

/-- The round-key table is complete: `RKV[r] = 1` for all `r` in `0..nr`. -/
abbrev State.RkLoaded (s : State) : Prop := ∀ r ≤ s.nr.toNat, flagAt s.rkv r = true

/-! ### The errors of a command (R150, R152) -/

/-- The commands that need no context (R150, row NO_CONTEXT). -/
def needsNoContext : Instr → Bool
  | .nop | .create _ _ | .clrerr | .rdstat | .gfmul _ _ | .sbox _ | .isbox _ => true
  | .destroy | .ldst _ | .ldkey _ | .ldaux _ | .rdst _ | .rdrk _ _ | .rdkt _ | .subb | .isubb | .shrow | .ishrow
  | .mixcol | .imixcol | .eround | .dround | .addrk _ | .subrk _ | .xorrk _ | .addx | .xorx | .ktgen | .evenkeys
  | .oddkeys | .expand | .enc | .dec => false

/-- The commands that execute while ERR = 1 (R152 step 2). -/
def runsInErrorState : Instr → Bool
  | .nop | .clrerr | .rdstat => true
  | .create _ _ | .destroy | .ldst _ | .ldkey _ | .ldaux _ | .rdst _ | .rdrk _ _ | .rdkt _ | .gfmul _ _ | .sbox _
  | .isbox _ | .subb | .isubb | .shrow | .ishrow | .mixcol | .imixcol | .eround | .dround | .addrk _ | .subrk _
  | .xorrk _ | .addx | .xorx | .ktgen | .evenkeys | .oddkeys | .expand | .enc | .dec => false

/-- The pairs of sizes (block, key) that CREATE accepts (R2). -/
def legalSizes : List (SizeCode × SizeCode) :=
  [(.bits128, .bits128), (.bits128, .bits256), (.bits256, .bits256), (.bits256, .bits512), (.bits512, .bits512)]

/-- The parameters are legal (R150, row INVALID_PARAMS: CREATE only). -/
def parametersLegal : Instr → Bool
  | .create ksz bsz => (bsz, ksz) ∈ legalSizes
  | _ => true

/-- Every index of the command is in range (R150, row INDEX_RANGE). -/
def indicesInRange (s : State) : Instr → Bool
  | .ldst w | .ldaux w | .rdst w | .rdkt w => w < s.nb.toNat
  | .ldkey w => w < s.nk.toNat
  | .rdrk r w => r ≤ s.nr.toNat && w < s.nb.toNat
  | .addrk r | .subrk r | .xorrk r => r ≤ s.nr.toNat
  | _ => true

/-- Every word and entry that the command reads is valid (R150, row UNWRITTEN). -/
def operandsWritten (s : State) : Instr → Bool
  | .rdst w => flagAt s.stv w
  | .rdrk r _ => flagAt s.rkv r
  | .rdkt _ => s.ktv
  | .subb | .isubb | .shrow | .ishrow | .mixcol | .imixcol | .eround | .dround => allValid s.stv s.nb.toNat
  | .addrk r | .subrk r | .xorrk r => allValid s.stv s.nb.toNat && flagAt s.rkv r
  | .addx | .xorx => allValid s.stv s.nb.toNat && allValid s.auxv s.nb.toNat
  | .ktgen | .expand => allValid s.keyv s.nk.toNat
  | .evenkeys => allValid s.keyv s.nk.toNat && s.ktv
  | .oddkeys => (List.range (s.nr.toNat / 2)).all fun m => flagAt s.rkv (2 * m)
  | .enc | .dec => allValid s.stv s.nb.toNat && allValid s.rkv (s.nr.toNat + 1)
  | _ => true

/-- The one error that a decoded command answers with while ERR = 0, in the priority of R152. -/
def errorOf (i : Instr) (s : State) : Option ErrorCode :=
  if !parametersLegal i then some .invalidParams
  else if !(needsNoContext i || s.ctx) then some .noContext
  else if !indicesInRange s i then some .indexRange
  else if !operandsWritten s i then some .unwritten
  else none

/-- The word that a reading command puts on DOUT (R24, R27, R41, R64, R65, R234, R238, R239, R240); the other commands
put none there. -/
def readValue (i : Instr) (s : State) : Option Word :=
  match i with
  | .rdstat => some s.status
  | .rdst w => some (wordAt s.st w)
  | .rdrk r w => some (wordAt (s.rkEntry r) w)
  | .rdkt w => some (wordAt s.kt w)
  | .gfmul a b => some ((gfMul a b).setWidth 64)
  | .sbox t => some ((tables.sbox t s.dinByte).setWidth 64)
  | .isbox t => some ((sboxInv tables t s.dinByte).setWidth 64)
  | .nop | .create _ _ | .destroy | .clrerr | .ldst _ | .ldkey _ | .ldaux _ | .subb | .isubb | .shrow | .ishrow
  | .mixcol | .imixcol | .eround | .dround | .addrk _ | .subrk _ | .xorrk _ | .addx | .xorx | .ktgen | .evenkeys
  | .oddkeys | .expand | .enc | .dec => none

/-- The command executes (R152): it is not ignored for ERR = 1, and none of its checks fails. -/
def executes (i : Instr) (s : State) : Bool := (runsInErrorState i || !s.err) && (errorOf i s).isNone

/-! ### Sequences of commands -/

/-- Commands executed one after the other, on the data word the port holds. -/
def execAll : List Instr → State → Result
  | [], s => .next s
  | i :: is, s =>
    match exec i s with
    | .next t => execAll is t
    | .fault f => .fault f
    | .refused r => .refused r

/-- `(EROUND; XORRK r) for r = 1..nr-1`, between ADDRK 0 and EROUND; ADDRK nr (R116). -/
def encSequence (nr : Nat) : List Instr :=
  [.addrk 0] ++ (innerRounds nr).flatMap (fun r => [.eround, .xorrk r]) ++ [.eround, .addrk nr]

/-- `(DROUND; XORRK r) for r = nr-1 down to 1`, between SUBRK nr and DROUND; SUBRK 0 (R117). -/
def decSequence (nr : Nat) : List Instr :=
  [.subrk nr] ++ (innerRounds nr).reverse.flatMap (fun r => [.dround, .xorrk r]) ++ [.dround, .subrk 0]

/-! ### Independent readings of the rules -/

/-- One row of the opcode map (R205). -/
structure OpcodeRow where
  mnemonic : String
  pattern : CmdWord
  mask : CmdWord
deriving DecidableEq, Repr

/-- A command word belongs to a row: its fixed bits are the row's `match` (R203). -/
abbrev OpcodeRow.Matches (row : OpcodeRow) (c : CmdWord) : Prop := c &&& row.mask = row.pattern

/-- The opcode map as printed (R205): mnemonic, `match` and `mask` of every row, in the table's order. -/
def opcodeMap : List OpcodeRow :=
  [⟨"NOP", 0x00000000#32, 0xFFFFFFFF#32⟩,
    ⟨"CREATE", 0x01000000#32, 0xFFF0FFFF#32⟩,
    ⟨"DESTROY", 0x02000000#32, 0xFFFFFFFF#32⟩,
    ⟨"CLRERR", 0x03000000#32, 0xFFFFFFFF#32⟩,
    ⟨"RDSTAT", 0x04000000#32, 0xFFFFFFFF#32⟩,
    ⟨"LDST", 0x10000000#32, 0xFFFFFFF8#32⟩,
    ⟨"LDKEY", 0x11000000#32, 0xFFFFFFF8#32⟩,
    ⟨"LDAUX", 0x12000000#32, 0xFFFFFFF8#32⟩,
    ⟨"RDST", 0x18000000#32, 0xFFFFFFF8#32⟩,
    ⟨"RDRK", 0x19000000#32, 0xFFFFE0F8#32⟩,
    ⟨"RDKT", 0x1A000000#32, 0xFFFFFFF8#32⟩] ++
  [⟨"GFMUL", 0x20000000#32, 0xFFFF0000#32⟩,
    ⟨"SBOX", 0x21000000#32, 0xFFFFFFFC#32⟩,
    ⟨"ISBOX", 0x22000000#32, 0xFFFFFFFC#32⟩,
    ⟨"SUBB", 0x30000000#32, 0xFFFFFFFF#32⟩,
    ⟨"ISUBB", 0x31000000#32, 0xFFFFFFFF#32⟩,
    ⟨"SHROW", 0x32000000#32, 0xFFFFFFFF#32⟩,
    ⟨"ISHROW", 0x33000000#32, 0xFFFFFFFF#32⟩,
    ⟨"MIXCOL", 0x34000000#32, 0xFFFFFFFF#32⟩,
    ⟨"IMIXCOL", 0x35000000#32, 0xFFFFFFFF#32⟩,
    ⟨"EROUND", 0x38000000#32, 0xFFFFFFFF#32⟩,
    ⟨"DROUND", 0x39000000#32, 0xFFFFFFFF#32⟩] ++
  [⟨"ADDRK", 0x40000000#32, 0xFFFFE0FF#32⟩,
    ⟨"SUBRK", 0x41000000#32, 0xFFFFE0FF#32⟩,
    ⟨"XORRK", 0x42000000#32, 0xFFFFE0FF#32⟩,
    ⟨"ADDX", 0x43000000#32, 0xFFFFFFFF#32⟩,
    ⟨"XORX", 0x44000000#32, 0xFFFFFFFF#32⟩,
    ⟨"KTGEN", 0x50000000#32, 0xFFFFFFFF#32⟩,
    ⟨"EVENKEYS", 0x51000000#32, 0xFFFFFFFF#32⟩,
    ⟨"ODDKEYS", 0x52000000#32, 0xFFFFFFFF#32⟩,
    ⟨"EXPAND", 0x53000000#32, 0xFFFFFFFF#32⟩,
    ⟨"ENC", 0x60000000#32, 0xFFFFFFFF#32⟩,
    ⟨"DEC", 0x61000000#32, 0xFFFFFFFF#32⟩]

/-- The product of `a` and `b` as polynomials over GF(2), 15 bits (R43). -/
def polyProduct (a b : Byte) : BitVec 15 :=
  (List.range 8).foldl (fun acc i => if b.getLsbD i then acc ^^^ (a.setWidth 15 <<< i) else acc) 0#15

/-- The remainder of a 15-bit polynomial modulo `x^8+x^4+x^3+x^2+1` (R43): the terms `x^14` to `x^8` are cancelled in
turn. -/
def polyRemainder (p : BitVec 15) : Byte :=
  ((List.range 7).foldl (fun q k => if q.getLsbD (14 - k) then q ^^^ (0x11D#15 <<< (6 - k)) else q) p).setWidth 8

/-- `rotw(K, q)` (R133): `K` rotated left by `q` words. -/
def rotw (k : Block) (q : Nat) : Block := (List.range k.length).map fun j => k.getD ((j + q) % k.length) 0#64

/-- `tmv_m` (R133): `0x0001000100010001 << m` in each of `nb` words. -/
def tmvAt (nb m : Nat) : Block := List.replicate nb (0x0001000100010001#64 <<< m)

/-- The closed form of round key `2m` (R133). -/
def evenKeyClosed (T : Config.Tables) (nb nk : Nat) (key kt : Block) (m : Nat) : Block :=
  if nk = 2 * nb then derive T kt (((rotw key (m / 2)).drop (m % 2 * nb)).take nb) (tmvAt nb m)
  else derive T kt ((rotw key m).take nb) (tmvAt nb m)

/-! ### States that no command can tell apart (R18) -/

/-- Two states agree on every flag and field, on the port and the pending events, and on every word whose valid bit is
1. They may differ in the contents of invalid words, in storage outside the context, and in the model's counter of free
values. -/
def State.Agree (s t : State) : Prop :=
  (s.stv = t.stv ∧ s.keyv = t.keyv ∧ s.auxv = t.auxv ∧ s.ktv = t.ktv ∧ s.rkv = t.rkv) ∧
    (s.dout = t.dout ∧ s.ctx = t.ctx ∧ s.nb = t.nb ∧ s.nk = t.nk ∧ s.nr = t.nr) ∧
    (s.err = t.err ∧ s.ecode = t.ecode ∧ s.eopc = t.eopc) ∧
    (s.cmd = t.cmd ∧ s.din = t.din ∧ s.pending = t.pending) ∧
    (∀ i, flagAt s.stv i = true → wordAt s.st i = wordAt t.st i) ∧
    (∀ i, flagAt s.keyv i = true → wordAt s.key i = wordAt t.key i) ∧
    (∀ i, flagAt s.auxv i = true → wordAt s.aux i = wordAt t.aux i) ∧
    (s.ktv = true → s.ktBlock = t.ktBlock) ∧
    (∀ r, flagAt s.rkv r = true → s.roundKey r = t.roundKey r)

end Sys2Proof.Machine
end

