-- ==== Sys2Proof/Certificates/Slice0/Obligations.lean ====
section
/-! DEFINITION. The statements for the provers, in the order of OBLIGATIONS.json: encoding, the step, errors, the whole
machine, the datapath functions, and each command's effect with its frame. -/

open Sys2Proof Sys2Proof.Machine

/-! ### Encoding -/

/-- Every well-formed command decodes from its own word: no bit of an encoding is dropped (R201, R202, R205). -/
def Obligations.DecodeOfEncodeIsTheCommand : Prop :=
  ∀ i : Instr, i.WellFormed = true → decode (encode i) = .ok i

/-- A word that decodes is the word of the command it decodes to, so each command has one word (R202, R203). -/
def Obligations.DecodedCommandHasOneWord : Prop :=
  ∀ (c : CmdWord) (i : Instr), decode c = .ok i → i.WellFormed = true ∧ encode i = c

/-- R203 whole: a word decodes to the command of the one row whose `match` equals `CMD & mask`; a word of no row is an
illegal command, which raises ILLEGAL_CMD and does nothing else. -/
def Obligations.DecodingFollowsTheOpcodeMap : Prop :=
  (∀ (c : CmdWord) (i : Instr), decode c = .ok i → ∃ row ∈ opcodeMap, row.Matches c ∧ row.mnemonic = mnemonic i) ∧
    (∀ c : CmdWord, ∀ row ∈ opcodeMap, row.Matches c → ∃ i, decode c = .ok i ∧ mnemonic i = row.mnemonic) ∧
    (∀ c : CmdWord, ∀ row ∈ opcodeMap, ∀ row' ∈ opcodeMap, row.Matches c → row'.Matches c → row = row') ∧
    (∀ (s : State) (c : CmdWord) (d : Word) (rest : List HostEvent),
      s.pending = .command c d :: rest → s.err = false → (∀ row ∈ opcodeMap, ¬ row.Matches c) →
        step s = .next ((s.withPort c d rest).faulted .illegalCmd))

/-- Every field is the unsigned number in its bits (R201, the table of fields), and a size code is one of four. -/
def Obligations.FieldsAreTheNumbersInTheirBits : Prop :=
  ∀ c : CmdWord,
    (opcField c).toNat = c.toNat / 2 ^ 24 ∧ (kszField c).code.toNat = c.toNat / 2 ^ 18 % 4 ∧
      (bszField c).code.toNat = c.toNat / 2 ^ 16 % 4 ∧ (aField c).toNat = c.toNat / 2 ^ 8 % 256 ∧
      rField c = c.toNat / 2 ^ 8 % 32 ∧ (bField c).toNat = c.toNat % 256 ∧ wField c = c.toNat % 8 ∧
      (tField c).val = c.toNat % 4

/-- The example words of the assembler's table (R206) decode to the commands they are printed for. -/
def Obligations.ExampleWordsDecode : Prop :=
  decode 0x60000000#32 = .ok .enc ∧ decode 0x01090000#32 = .ok (.create .bits512 .bits256) ∧
    decode 0x10000001#32 = .ok (.ldst 1) ∧ decode 0x18000000#32 = .ok (.rdst 0) ∧
    decode 0x19000A01#32 = .ok (.rdrk 10 1) ∧ decode 0x42000300#32 = .ok (.xorrk 3) ∧
    decode 0x21000002#32 = .ok (.sbox 2) ∧ decode 0x20008002#32 = .ok (.gfmul 0x80#8 0x02#8)

/-! ### The step -/

/-- A step runs the command that the word on the port decodes to, with CMD and DIN as the host issued them; the other
pending events stay in order (R38, R200). -/
def Obligations.StepRunsTheDecodedCommand : Prop :=
  ∀ (s : State) (c : CmdWord) (d : Word) (rest : List HostEvent) (i : Instr),
    s.pending = .command c d :: rest → decode c = .ok i → step s = exec i (s.withPort c d rest)

/-- The model's choice (log entry 3): with no event pending, a step changes nothing. -/
def Obligations.StepWithNothingPendingWaits : Prop :=
  ∀ s : State, s.pending = [] → step s = .next s

/-- Reset as the host asserts it (R180): every flag, field, valid bit and DOUT is 0 afterwards, and only register
contents are left open; the port keeps its words (the model's choice, log entry 3). -/
def Obligations.ResetEventClearsFlagsFieldsAndValidBits : Prop :=
  ∀ (s : State) (rest : List HostEvent), s.pending = .reset :: rest →
    ∃ t, step s = .next t ∧
      t = { State.reset with
              st := t.st, key := t.key, aux := t.aux, kt := t.kt, rk := t.rk
              cmd := s.cmd, din := s.din, pending := rest, freeDraws := t.freeDraws }

/-- A step never stops the machine: it answers a next state from every state whatever (R36: every command completes;
R153: every error is an entry after which the core goes on). -/
def Obligations.EveryStepAnswersANextState : Prop :=
  (∀ s : State, ∃ t, step s = .next t) ∧ ∀ (i : Instr) (s : State), ∃ t, exec i s = .next t

/-! ### Errors -/

/-- R152 whole: what a command word does, in the order of its four steps. -/
def Obligations.ExecutionSequenceAndPriority : Prop :=
  ∀ (s : State) (c : CmdWord) (d : Word) (rest : List HostEvent), s.pending = .command c d :: rest →
    match decode c with
    | .error _ =>
      (s.err = false → step s = .next ((s.withPort c d rest).faulted .illegalCmd)) ∧
        (s.err = true → step s = .next (s.withPort c d rest))
    | .ok i =>
      (s.err = true → runsInErrorState i = false → step s = .next (s.withPort c d rest)) ∧
        (s.err = false → ∀ code, errorOf i (s.withPort c d rest) = some code →
          step s = .next ((s.withPort c d rest).faulted code)) ∧
        (executes i (s.withPort c d rest) = true →
          ∃ t, step s = .next t ∧ exec i (s.withPort c d rest) = .next t ∧
            (t.err = true → t.err = s.err ∧ t.ecode = s.ecode ∧ t.eopc = s.eopc))

/-- R153 whole: an error writes ERR, ECODE and EOPC and nothing else, from every state and for every command. -/
def Obligations.ErrorEntryWritesOnlyTheErrorFields : Prop :=
  ∀ (i : Instr) (s t : State), exec i s = .next t → s.err = false → t.err = true →
    ∃ code : ErrorCode, t = s.faulted code ∧ errorOf i s = some code

/-- R154 whole: in the error state every word but NOP, RDSTAT and CLRERR is ignored, an illegal one too; the first
error is kept, and none can follow it. -/
def Obligations.ErrorStateKeepsTheFirstError : Prop :=
  (∀ (s : State) (c : CmdWord) (d : Word) (rest : List HostEvent),
    s.pending = .command c d :: rest → s.err = true →
    decode c ≠ .ok .nop → decode c ≠ .ok .rdstat → decode c ≠ .ok .clrerr →
      step s = .next (s.withPort c d rest)) ∧
    ∀ (i : Instr) (s t : State), exec i s = .next t → s.err = true →
      (t.err = true ∧ t.ecode = s.ecode ∧ t.eopc = s.eopc) ∨ (i = .clrerr ∧ t.err = false)

/-- The error state is left only by CLRERR or reset (R155, first sentence). -/
def Obligations.OnlyClrerrAndResetLeaveTheErrorState : Prop :=
  ∀ s t : State, s.err = true → step s = .next t → t.err = false →
    (∃ rest, s.pending = .reset :: rest) ∨ ∃ c d rest, s.pending = .command c d :: rest ∧ decode c = .ok .clrerr

/-! ### Invariants of the whole machine -/

/-- The values of R30 in the state after reset: every flag, field, valid bit and DOUT is 0, so the status word is 0 and
every word and entry is unreadable. The contents, which R30 leaves unspecified, are not spoken of. -/
def Obligations.StateAfterResetHasTheValuesOfTheTable : Prop :=
  (State.reset.ctx = false ∧ State.reset.nb = 0#4 ∧ State.reset.nk = 0#4 ∧ State.reset.nr = 0#5) ∧
    (State.reset.err = false ∧ State.reset.ecode = 0#4 ∧ State.reset.eopc = 0#8 ∧ State.reset.keyed = false) ∧
    (∀ i, flagAt State.reset.stv i = false ∧ flagAt State.reset.keyv i = false ∧ flagAt State.reset.auxv i = false) ∧
    (State.reset.ktv = false ∧ ∀ r, flagAt State.reset.rkv r = false) ∧
    (State.reset.dout = 0#64 ∧ State.reset.status = 0#64)

/-- The invariants that every step keeps hold after reset. -/
def Obligations.ResetSatisfiesTheInvariants : Prop :=
  State.reset.Inv ∧ State.reset.KtBelongsToKey ∧ State.reset.OddKeysBelongToEvenKeys

/-- Every step keeps the configuration legal, the valid bits in range and the error fields in agreement (R17, R25, R26,
R150), from every state in which they are. -/
def Obligations.EveryStepKeepsTheInvariant : Prop :=
  ∀ s t : State, s.Inv → step s = .next t → t.Inv

/-- A Kt that is valid always belongs to the key in KEY (R22: "LDKEY clears KTV, because a Kt derived from an earlier
key no longer corresponds to KEY"). -/
def Obligations.EveryStepKeepsKtWithItsKey : Prop :=
  ∀ s t : State, s.Inv → s.KtBelongsToKey → step s = .next t → t.KtBelongsToKey

/-- A valid odd round key always belongs to the valid even round key before it, so a complete table never mixes two
schedules' keys (R135, corner cases). -/
def Obligations.EveryStepKeepsOddKeysWithTheirEvenKeys : Prop :=
  ∀ s t : State, s.Inv → s.OddKeysBelongToEvenKeys → step s = .next t → t.OddKeysBelongToEvenKeys

/-- The value of an invalid word cannot be observed (R18): states that agree on all but such words step to states that
agree, and show the host the same DOUT and status. It holds for every value of the model's free contents. -/
def Obligations.UnspecifiedContentsCannotBeObserved : Prop :=
  ∀ s t s' : State, s.Inv → s.Agree t → step s = .next s' →
    ∃ t', step t = .next t' ∧ s'.Agree t' ∧ s'.dout = t'.dout ∧ s'.status = t'.status

/-- Only KTGEN, EVENKEYS and EXPAND read KEY (R20): for every other command, two runs that differ in KEY alone end in
states that differ in KEY alone. -/
def Obligations.OnlyTheKeyScheduleReadsKey : Prop :=
  ∀ (i : Instr) (s t u : State) (k : Vector Word 8), i ≠ .ktgen → i ≠ .evenkeys → i ≠ .expand →
    exec i s = .next t → exec i { s with key := k } = .next u → u = { t with key := u.key }

/-- R24 whole: DOUT takes the value a reading command reads, keeps its value through every other command and through
every faulting or ignored one, and is 0 after reset. -/
def Obligations.DoutIsWrittenByReadingCommandsOnly : Prop :=
  (∀ (i : Instr) (s t : State), exec i s = .next t →
    t.dout = if executes i s then (readValue i s).getD s.dout else s.dout) ∧
    State.reset.dout = 0#64

/-- R25 whole: a CREATE that succeeds sets CTX with a legal row, a DESTROY that executes sets all four fields to 0,
every other command, and a faulting or ignored one, keeps them, and they hold a legal row whenever CTX = 1. -/
def Obligations.ConfigurationIsWrittenByCreateAndDestroyOnly : Prop :=
  ∀ (i : Instr) (s t : State), exec i s = .next t →
    (executes i s = true → (∃ ksz bsz, i = .create ksz bsz) → t.ctx = true ∧ (t.nb, t.nk, t.nr) ∈ legalRows) ∧
      (executes i s = true → i = .destroy → (t.ctx, t.nb, t.nk, t.nr) = (false, 0#4, 0#4, 0#5)) ∧
      ((executes i s = false ∨ (∀ ksz bsz, i ≠ .create ksz bsz) ∧ i ≠ .destroy) →
        (t.ctx, t.nb, t.nk, t.nr) = (s.ctx, s.nb, s.nk, s.nr)) ∧
      (s.LegalConfig → t.LegalConfig)

/-- R37 whole: the reading commands change only DOUT, and the same one issued again gives the same DOUT. -/
def Obligations.ReadingHasNoSideEffect : Prop :=
  ∀ (i : Instr) (s t : State), readValue i s ≠ none → exec i s = .next t →
    (executes i s = true → t = { s with dout := t.dout }) ∧
      ∃ u, exec i t = .next u ∧ u.dout = t.dout

/-- Which commands can change each register file and its valid bits (R19, R21, R22, R23); every other command keeps it
bit for bit. CREATE and DESTROY, and LDKEY for KT, clear valid bits (R231, R232, R236). -/
def Obligations.EachRegisterFileHasItsWriters : Prop :=
  ∀ (i : Instr) (s t : State), exec i s = .next t →
    ((∃ ksz bsz, i = .create ksz bsz) ∨ i = .destroy) ∨
      ((mnemonic i ∈ ["LDST", "SUBB", "ISUBB", "SHROW", "ISHROW", "MIXCOL", "IMIXCOL", "EROUND", "DROUND", "ADDRK", "SUBRK",
          "XORRK", "ADDX", "XORX", "ENC", "DEC", "KTGEN", "EVENKEYS", "EXPAND"] ∨ (t.st = s.st ∧ t.stv = s.stv)) ∧
        (mnemonic i ∈ ["LDKEY"] ∨ (t.key = s.key ∧ t.keyv = s.keyv)) ∧
        (mnemonic i ∈ ["LDAUX"] ∨ (t.aux = s.aux ∧ t.auxv = s.auxv)) ∧
        (mnemonic i ∈ ["KTGEN", "EXPAND", "LDKEY"] ∨ (t.kt = s.kt ∧ t.ktv = s.ktv)) ∧
        (mnemonic i ∈ ["EVENKEYS", "ODDKEYS", "EXPAND"] ∨ (t.rk = s.rk ∧ t.rkv = s.rkv)))

/-! ### The datapath functions -/

/-- R42 whole. -/
def Obligations.GfMulIsCommutativeAndDistributive : Prop :=
  ∀ a b c : Byte, gfMul a b = gfMul b a ∧ gfMul a (b ^^^ c) = gfMul a b ^^^ gfMul a c ∧ gfMul a 0#8 = 0#8

/-- The algebraic reading of the multiplier, which the spec marks as general knowledge and a proof may establish from
R40 (R43, 93_implementation_defined.md I1): the polynomial product modulo the reduction polynomial, with identity 1. -/
def Obligations.GfMulIsTheReducedPolynomialProduct : Prop :=
  ∀ a b : Byte, gfMul a b = polyRemainder (polyProduct a b) ∧ gfMul a 1#8 = a

/-- R50 and R51 whole: the places of the bytes, the value of a word, and the round trip both ways. -/
def Obligations.WordsAndBytesAreInverse : Prop :=
  (∀ (v : Block) (i j : Nat), i < v.length → j < 8 → (bytes v)[8 * i + j]? = some (byteOf (v.getD i 0#64) j)) ∧
    (∀ v : Block, (bytes v).length = 8 * v.length ∧ words (bytes v) = v) ∧
    (∀ (b : List Byte) (i : Nat), 8 * i + 7 < b.length →
      ∃ w, (words b)[i]? = some w ∧
        w.toNat = ((List.range 8).map fun j => (b.getD (8 * i + j) 0#8).toNat * 2 ^ (8 * j)).sum) ∧
    (∀ b : List Byte, b.length % 8 = 0 → bytes (words b) = b)

/-- R60, R61 and R63 whole: each byte goes through the table of its place, the inverse tables undo the forward ones, and
so do the layers, either way round. -/
def Obligations.SubstitutionIsByteWiseAndInvertible : Prop :=
  (∀ (T : Config.Tables) (v : Block) (i j : Nat), i < v.length → j < 8 →
    byteOf ((subBytes T v).getD i 0#64) j = T.sbox (Fin.ofNat 4 (j % 4)) (byteOf (v.getD i 0#64) j) ∧
      byteOf ((invSubBytes T v).getD i 0#64) j = sboxInv T (Fin.ofNat 4 (j % 4)) (byteOf (v.getD i 0#64) j)) ∧
    (∀ (t : Fin 4) (x : Byte), sboxInv tables t (tables.sbox t x) = x ∧ tables.sbox t (sboxInv tables t x) = x) ∧
    ∀ v : Block, invSubBytes tables (subBytes tables v) = v ∧ subBytes tables (invSubBytes tables v) = v

/-- R80 and R81 whole, for the three block lengths: the byte in row `r`, column `c` moves to column `c + s(r)`, or back,
and the two layers undo each other. -/
def Obligations.RowShiftMovesEachByteAndIsInvertible : Prop :=
  ∀ v : Block, v.length ∈ [2, 4, 8] →
    (∀ r < 8, ∀ c < v.length,
      byteOf ((shiftRows v).getD ((c + r / (8 / v.length)) % v.length) 0#64) r = byteOf (v.getD c 0#64) r ∧
        byteOf ((invShiftRows v).getD c 0#64) r
          = byteOf (v.getD ((c + r / (8 / v.length)) % v.length) 0#64) r) ∧
      (shiftRows v).length = v.length ∧ (invShiftRows v).length = v.length ∧
      invShiftRows (shiftRows v) = v ∧ shiftRows (invShiftRows v) = v

/-- R90 and R91 whole: each output byte is the matrix row times the column, and the two layers undo each other under the
default tables. -/
def Obligations.DiffusionIsTheMatrixProductAndIsInvertible : Prop :=
  (∀ (T : Config.Tables) (v : Block) (c : Nat) (row : Fin 8), c < v.length →
    byteOf ((mixColumns T v).getD c 0#64) row.val
        = (List.finRange 8).foldr (fun b acc => gfMul (byteOf (v.getD c 0#64) b.val) (T.mds row b) ^^^ acc) 0#8 ∧
      byteOf ((invMixColumns T v).getD c 0#64) row.val
        = (List.finRange 8).foldr (fun b acc => gfMul (byteOf (v.getD c 0#64) b.val) (T.mdsInv row b) ^^^ acc) 0#8) ∧
    ∀ v : Block, invMixColumns tables (mixColumns tables v) = v ∧ mixColumns tables (invMixColumns tables v) = v

/-- R92 and R93: both matrices are circulant with the first rows the rules print, and their product under `gf_mul` is
the identity, either way round. -/
def Obligations.MatricesAreCirculantAndInverse : Prop :=
  (List.ofFn (tables.mds 0) = [0x01#8, 0x01#8, 0x05#8, 0x01#8, 0x08#8, 0x06#8, 0x07#8, 0x04#8]) ∧
    (List.ofFn (tables.mdsInv 0) = [0xAD#8, 0x95#8, 0x76#8, 0xA8#8, 0x2F#8, 0x49#8, 0xD7#8, 0xCA#8]) ∧
    ∀ row col : Fin 8,
      tables.mds row col = tables.mds 0 (col - row) ∧ tables.mdsInv row col = tables.mdsInv 0 (col - row) ∧
        (List.finRange 8).foldr (fun k acc => gfMul (tables.mds row k) (tables.mdsInv k col) ^^^ acc) 0#8
          = (if row = col then 1#8 else 0#8) ∧
        (List.finRange 8).foldr (fun k acc => gfMul (tables.mdsInv row k) (tables.mds k col) ^^^ acc) 0#8
          = (if row = col then 1#8 else 0#8)

/-- R100 whole: the three operators act word by word modulo 2^64; Add and Subtract undo each other and Xor undoes
itself. -/
def Obligations.WordOperatorsActOnEachWordAndUndoEachOther : Prop :=
  ∀ v k : Block, v.length = k.length →
    (∀ i < v.length,
      ((addW v k).getD i 0#64).toNat = ((v.getD i 0#64).toNat + (k.getD i 0#64).toNat) % 2 ^ 64 ∧
        (((subW v k).getD i 0#64).toNat : Int)
          = (((v.getD i 0#64).toNat : Int) - ((k.getD i 0#64).toNat : Int)) % 2 ^ 64 ∧
        (xorW v k).getD i 0#64 = v.getD i 0#64 ^^^ k.getD i 0#64) ∧
      subW (addW v k) k = v ∧ addW (subW v k) k = v ∧ xorW (xorW v k) k = v

/-- R111 whole: the inverse round is the inverse layers in reverse order, and undoes the forward round. -/
def Obligations.DecRoundUndoesEncRound : Prop :=
  ∀ v : Block, v.length ∈ [2, 4, 8] →
    decRound tables v = invSubBytes tables (invShiftRows (invMixColumns tables v)) ∧
      decRound tables (encRound tables v) = v ∧ encRound tables (decRound tables v) = v

/-- R118 whole: for every legal parameter set, every table of round keys and every block, `Decipher(Encipher(P)) = P`. -/
def Obligations.DecipherUndoesEncipher : Prop :=
  ∀ (nb nk : BitVec 4) (nr : BitVec 5) (rk : Nat → Block) (p : Block), (nb, nk, nr) ∈ legalRows →
    (∀ r, (rk r).length = nb.toNat) → p.length = nb.toNat →
      decipher tables rk nr.toNat (encipher tables rk nr.toNat p) = p

/-- R133 whole: the loop of EvenKeys answers the closed form at every even index 0, 2, ..., nr, each exactly once and in
order, for every parameter set, whatever the tables. -/
def Obligations.EvenKeyLoopHasTheClosedForm : Prop :=
  ∀ (T : Config.Tables) (nb nk : BitVec 4) (nr : BitVec 5) (key kt : Block), (nb, nk, nr) ∈ legalRows →
    key.length = nk.toNat →
      evenKeys T nb.toNat nk.toNat nr.toNat key kt
        = (List.range (nr.toNat / 2 + 1)).map fun m => (2 * m, evenKeyClosed T nb.toNat nk.toNat key kt m)

/-- R134 whole: there is one odd key for every odd `i` from 1 to `nr-1`, and byte `j` of it is byte
`(j + 2*nb + 3) mod 8*nb` of the even key before it. -/
def Obligations.OddKeysAreRotatedEvenKeys : Prop :=
  ∀ (nb nk : BitVec 4) (nr : BitVec 5) (rk : Nat → Block), (nb, nk, nr) ∈ legalRows →
    (∀ r, (rk r).length = nb.toNat) →
      (oddKeys nb.toNat nr.toNat rk).map Prod.fst = (List.range (nr.toNat / 2)).map (fun m => 2 * m + 1) ∧
        ∀ e ∈ oddKeys nb.toNat nr.toNat rk, e.2.length = nb.toNat ∧ ∀ j < 8 * nb.toNat,
          (bytes e.2).getD j 0#8
            = (bytes (rk (e.1 - 1))).getD ((j + (2 * nb.toNat + 3)) % (8 * nb.toNat)) 0#8

/-! ### Commands: control and status -/

/-- NOP, CLRERR and RDSTAT complete from every state, also while ERR = 1: NOP changes nothing (R230), CLRERR clears the
error fields and nothing else (R233), and RDSTAT puts the word of R27, field by field, on DOUT (R234). -/
def Obligations.NopClrerrRdstatAlwaysComplete : Prop :=
  ∀ s : State,
    exec .nop s = .next s ∧
      exec .clrerr s = .next { s with err := false, ecode := 0#4, eopc := 0#8 } ∧
      ∃ t, exec .rdstat s = .next t ∧ t = { s with dout := t.dout } ∧
        t.dout.getLsbD 0 = s.ctx ∧ (t.dout.getLsbD 1 = true ↔ s.ctx = true ∧ s.RkLoaded) ∧
        t.dout.getLsbD 2 = s.err ∧ t.dout.getLsbD 3 = s.ktv ∧ t.dout.extractLsb' 4 4 = s.ecode ∧
        t.dout.extractLsb' 8 4 = s.nb ∧ t.dout.extractLsb' 12 4 = s.nk ∧ t.dout.extractLsb' 16 5 = s.nr ∧
        t.dout.extractLsb' 21 3 = 0#3 ∧
        (∀ i < 8, t.dout.getLsbD (24 + i) = flagAt s.stv i ∧ t.dout.getLsbD (32 + i) = flagAt s.keyv i ∧
          t.dout.getLsbD (40 + i) = flagAt s.auxv i) ∧
        t.dout.extractLsb' 48 8 = s.eopc ∧ t.dout.extractLsb' 56 8 = 0#8

/-- CREATE with a legal pair of sizes completes whether or not a context exists (R231): the row's parameters, a zeroed
and valid ST, and nothing else valid. It spares the error fields, DOUT and the port. Which contents the invalid words
take is left open. -/
def Obligations.CreateMakesAFreshContext : Prop :=
  ∀ (s : State) (bsz ksz : SizeCode) (nb nk : BitVec 4) (nr : BitVec 5), s.err = false →
    (bsz, ksz, nb, nk, nr) ∈
      [(.bits128, .bits128, 2#4, 2#4, 10#5), (.bits128, .bits256, 2#4, 4#4, 14#5), (.bits256, .bits256, 4#4, 4#4, 14#5),
        (.bits256, .bits512, 4#4, 8#4, 18#5), (.bits512, .bits512, 8#4, 8#4, 18#5)] →
    ∃ t, exec (.create ksz bsz) s = .next t ∧
      t = { s with
              ctx := true, nb := nb, nk := nk, nr := nr, st := t.st, stv := t.stv, key := t.key, keyv := t.keyv
              aux := t.aux, auxv := t.auxv, kt := t.kt, ktv := false, rk := t.rk, rkv := t.rkv
              freeDraws := t.freeDraws } ∧
        (∀ i < nb.toNat, wordAt t.st i = 0#64) ∧ (∀ i, flagAt t.stv i = decide (i < nb.toNat)) ∧
        (∀ i, flagAt t.keyv i = false ∧ flagAt t.auxv i = false ∧ flagAt t.rkv i = false) ∧ t.keyed = false

/-- CREATE with any other pair, the reserved code among them, raises INVALID_PARAMS and keeps the old context (R231,
R204). -/
def Obligations.CreateRejectsEveryOtherPair : Prop :=
  ∀ (s : State) (bsz ksz : SizeCode), s.err = false → (bsz, ksz) ∉ legalSizes →
    exec (.create ksz bsz) s = .next { s with err := true, ecode := 1#4, eopc := s.cmd.extractLsb' 24 8 }

/-- DESTROY completes whenever a context exists (R232): no context, no parameter, no valid bit; it spares the error
fields, DOUT and the port. -/
def Obligations.DestroyEndsTheContext : Prop :=
  ∀ s : State, s.err = false → s.ctx = true →
    ∃ t, exec .destroy s = .next t ∧
      t = { s with
              ctx := false, nb := 0#4, nk := 0#4, nr := 0#5, st := t.st, stv := t.stv, key := t.key, keyv := t.keyv
              aux := t.aux, auxv := t.auxv, kt := t.kt, ktv := false, rk := t.rk, rkv := t.rkv
              freeDraws := t.freeDraws } ∧
        (∀ i, flagAt t.stv i = false ∧ flagAt t.keyv i = false ∧ flagAt t.auxv i = false ∧ flagAt t.rkv i = false) ∧
        t.keyed = false

/-! ### Commands: data port -/

/-- LDST and LDAUX (R235, R237): in a context, an index below nb writes DIN into that word and makes it valid, and
nothing else changes. -/
def Obligations.LdstAndLdauxWriteOneWord : Prop :=
  ∀ (s : State) (w : Nat), s.Ready → w < s.nb.toNat →
    (∃ t, exec (.ldst w) s = .next t ∧ t = { s with st := t.st, stv := t.stv } ∧
      ∀ i, wordAt t.st i = (if i = w then s.din else wordAt s.st i) ∧
        flagAt t.stv i = (if i = w then true else flagAt s.stv i)) ∧
    ∃ t, exec (.ldaux w) s = .next t ∧ t = { s with aux := t.aux, auxv := t.auxv } ∧
      ∀ i, wordAt t.aux i = (if i = w then s.din else wordAt s.aux i) ∧
        flagAt t.auxv i = (if i = w then true else flagAt s.auxv i)

/-- LDKEY (R236): an index below nk writes DIN into that key word and makes it valid; Kt becomes invalid, and the
round-key table, with KEYED, stays as it is. -/
def Obligations.LdkeyWritesOneWordAndInvalidatesKt : Prop :=
  ∀ (s : State) (w : Nat), s.Ready → w < s.nk.toNat →
    ∃ t, exec (.ldkey w) s = .next t ∧
      t = { s with key := t.key, keyv := t.keyv, kt := t.kt, ktv := false, freeDraws := t.freeDraws } ∧
        (∀ i, wordAt t.key i = (if i = w then s.din else wordAt s.key i) ∧
          flagAt t.keyv i = (if i = w then true else flagAt s.keyv i)) ∧
        t.keyed = s.keyed

/-- RDST, RDRK and RDKT (R238, R239, R240): a word in range of a valid register goes to DOUT, and nothing else
changes. -/
def Obligations.ReadCommandsPutTheWordOnDout : Prop :=
  ∀ (s : State) (r w : Nat), s.Ready → w < s.nb.toNat →
    (flagAt s.stv w = true → exec (.rdst w) s = .next { s with dout := wordAt s.st w }) ∧
      (r ≤ s.nr.toNat → flagAt s.rkv r = true →
        exec (.rdrk r w) s = .next { s with dout := (s.roundKey r).getD w 0#64 }) ∧
      (s.ktv = true → exec (.rdkt w) s = .next { s with dout := s.ktBlock.getD w 0#64 })

/-- GFMUL, SBOX and ISBOX (R41, R64, R65) complete without a context: the byte they compute goes to DOUT, zero-extended,
and nothing else changes; of DIN only the low byte counts, and ISBOX undoes SBOX. -/
def Obligations.ByteUnitsPutTheByteOnDout : Prop :=
  ∀ (s : State) (a b : Byte) (t : Fin 4), s.err = false →
    exec (.gfmul a b) s = .next { s with dout := 0#56 ++ gfMul a b } ∧
      exec (.sbox t) s = .next { s with dout := 0#56 ++ tables.sbox t (s.din.setWidth 8) } ∧
      ∃ v, tables.sbox t v = s.din.setWidth 8 ∧ exec (.isbox t) s = .next { s with dout := 0#56 ++ v }

/-! ### Commands on the state -/

/-- SUBB and ISUBB (R66, R67) on a loaded state: every byte of ST[0..nb-1] goes through the table of its place; words
nb..7 and everything else stay. -/
def Obligations.SubbAndIsubbSubstituteEveryByte : Prop :=
  ∀ s : State, s.Ready → s.StLoaded →
    (∃ t, exec .subb s = .next t ∧ t = { s with st := t.st } ∧
      (∀ i < s.nb.toNat, ∀ j < 8,
        byteOf (wordAt t.st i) j = tables.sbox (Fin.ofNat 4 (j % 4)) (byteOf (wordAt s.st i) j)) ∧
      ∀ i, s.nb.toNat ≤ i → wordAt t.st i = wordAt s.st i) ∧
    ∃ t, exec .isubb s = .next t ∧ t = { s with st := t.st } ∧
      (∀ i < s.nb.toNat, ∀ j < 8,
        byteOf (wordAt s.st i) j = tables.sbox (Fin.ofNat 4 (j % 4)) (byteOf (wordAt t.st i) j)) ∧
      ∀ i, s.nb.toNat ≤ i → wordAt t.st i = wordAt s.st i

/-- SHROW and ISHROW (R82, R83) on a loaded state: the byte in row `r`, column `c` moves to column
`(c + s(r)) mod nb`, or back; words nb..7 and everything else stay. -/
def Obligations.ShrowAndIshrowMoveEveryByte : Prop :=
  ∀ s : State, s.Ready → s.StLoaded →
    (∃ t, exec .shrow s = .next t ∧ t = { s with st := t.st } ∧
      (∀ r < 8, ∀ c < s.nb.toNat,
        byteOf (wordAt t.st ((c + r / (8 / s.nb.toNat)) % s.nb.toNat)) r = byteOf (wordAt s.st c) r) ∧
      ∀ i, s.nb.toNat ≤ i → wordAt t.st i = wordAt s.st i) ∧
    ∃ t, exec .ishrow s = .next t ∧ t = { s with st := t.st } ∧
      (∀ r < 8, ∀ c < s.nb.toNat,
        byteOf (wordAt t.st c) r = byteOf (wordAt s.st ((c + r / (8 / s.nb.toNat)) % s.nb.toNat)) r) ∧
      ∀ i, s.nb.toNat ≤ i → wordAt t.st i = wordAt s.st i

/-- MIXCOL and IMIXCOL (R94, R95) on a loaded state: every column is multiplied by MDS or by MDS_INV; words nb..7 and
everything else stay. -/
def Obligations.MixcolAndImixcolMultiplyEveryColumn : Prop :=
  ∀ s : State, s.Ready → s.StLoaded →
    (∃ t, exec .mixcol s = .next t ∧ t = { s with st := t.st } ∧
      (∀ c < s.nb.toNat, ∀ row : Fin 8, byteOf (wordAt t.st c) row.val
        = (List.finRange 8).foldr (fun b acc => gfMul (byteOf (wordAt s.st c) b.val) (tables.mds row b) ^^^ acc) 0#8) ∧
      ∀ i, s.nb.toNat ≤ i → wordAt t.st i = wordAt s.st i) ∧
    ∃ t, exec .imixcol s = .next t ∧ t = { s with st := t.st } ∧
      (∀ c < s.nb.toNat, ∀ row : Fin 8, byteOf (wordAt t.st c) row.val
        = (List.finRange 8).foldr (fun b acc => gfMul (byteOf (wordAt s.st c) b.val) (tables.mdsInv row b) ^^^ acc)
            0#8) ∧
      ∀ i, s.nb.toNat ≤ i → wordAt t.st i = wordAt s.st i

/-- EROUND is exactly SUBB; SHROW; MIXCOL, and DROUND exactly IMIXCOL; ISHROW; ISUBB (R112, R113): on a loaded state they
complete, in the state the three commands leave, and change ST alone. -/
def Obligations.RoundCommandsAreTheirThreeLayers : Prop :=
  ∀ s : State, s.Ready → s.StLoaded →
    (∃ t, exec .eround s = .next t ∧ execAll [.subb, .shrow, .mixcol] s = .next t ∧ t = { s with st := t.st } ∧
      t.stBlock = encRound tables s.stBlock) ∧
    ∃ t, exec .dround s = .next t ∧ execAll [.imixcol, .ishrow, .isubb] s = .next t ∧ t = { s with st := t.st } ∧
      t.stBlock = decRound tables s.stBlock

/-- ADDRK, SUBRK and XORRK (R101, R102, R103): with the state loaded and round key r valid and in range, each word of
ST[0..nb-1] takes in the word of RK[r] at its index; words nb..7 and everything else stay. -/
def Obligations.RoundKeyInjectionActsWordByWord : Prop :=
  ∀ (s : State) (r : Nat), s.Ready → s.StLoaded → r ≤ s.nr.toNat → flagAt s.rkv r = true →
    (∃ t, exec (.addrk r) s = .next t ∧ t = { s with st := t.st } ∧ ∀ i, wordAt t.st i =
      (if i < s.nb.toNat then wordAt s.st i + wordAt (s.rkEntry r) i else wordAt s.st i)) ∧
    (∃ t, exec (.subrk r) s = .next t ∧ t = { s with st := t.st } ∧ ∀ i, wordAt t.st i =
      (if i < s.nb.toNat then wordAt s.st i - wordAt (s.rkEntry r) i else wordAt s.st i)) ∧
    ∃ t, exec (.xorrk r) s = .next t ∧ t = { s with st := t.st } ∧ ∀ i, wordAt t.st i =
      (if i < s.nb.toNat then wordAt s.st i ^^^ wordAt (s.rkEntry r) i else wordAt s.st i)

/-- ADDX and XORX (R104, R105): the same with AUX in the place of the round key. -/
def Obligations.AuxInjectionActsWordByWord : Prop :=
  ∀ s : State, s.Ready → s.StLoaded → s.AuxLoaded →
    (∃ t, exec .addx s = .next t ∧ t = { s with st := t.st } ∧ ∀ i, wordAt t.st i =
      (if i < s.nb.toNat then wordAt s.st i + wordAt s.aux i else wordAt s.st i)) ∧
    ∃ t, exec .xorx s = .next t ∧ t = { s with st := t.st } ∧ ∀ i, wordAt t.st i =
      (if i < s.nb.toNat then wordAt s.st i ^^^ wordAt s.aux i else wordAt s.st i)

/-- ENC and DEC are exactly the sequences of stage commands that R116 and R117 name: with the state loaded and the table
complete they complete, in the state that the sequence leaves, and change ST alone. -/
def Obligations.EncAndDecAreTheirStageCommands : Prop :=
  ∀ s : State, s.Ready → s.StLoaded → s.RkLoaded →
    (∃ t, exec .enc s = .next t ∧ execAll (encSequence s.nr.toNat) s = .next t ∧ t = { s with st := t.st } ∧
      t.stBlock = encipher tables s.roundKey s.nr.toNat s.stBlock) ∧
    ∃ t, exec .dec s = .next t ∧ execAll (decSequence s.nr.toNat) s = .next t ∧ t = { s with st := t.st } ∧
      t.stBlock = decipher tables s.roundKey s.nr.toNat s.stBlock

/-- ENC then DEC leaves the machine exactly where it was (R116, corner cases; R118), whatever round keys it holds. -/
def Obligations.EncThenDecRestoresTheState : Prop :=
  ∀ s : State, s.Ready → s.StLoaded → s.RkLoaded → execAll [.enc, .dec] s = .next s

/-- The stage commands that the corner cases of R67, R83, R95, R102, R103, R105 and R113 call inverse undo each other,
exactly and in either order. -/
def Obligations.InverseStageCommandsUndoEachOther : Prop :=
  ∀ (s : State) (r : Nat), s.Ready → s.StLoaded →
    (execAll [.subb, .isubb] s = .next s ∧ execAll [.isubb, .subb] s = .next s ∧
      execAll [.shrow, .ishrow] s = .next s ∧ execAll [.ishrow, .shrow] s = .next s ∧
      execAll [.mixcol, .imixcol] s = .next s ∧ execAll [.imixcol, .mixcol] s = .next s ∧
      execAll [.eround, .dround] s = .next s ∧ execAll [.dround, .eround] s = .next s) ∧
    (r ≤ s.nr.toNat → flagAt s.rkv r = true →
      execAll [.addrk r, .subrk r] s = .next s ∧ execAll [.subrk r, .addrk r] s = .next s ∧
        execAll [.xorrk r, .xorrk r] s = .next s) ∧
    (s.AuxLoaded → execAll [.xorx, .xorx] s = .next s)

/-! ### Commands: key schedule -/

/-- KTGEN (R131) with the key loaded: KT takes the value of R130, spelled out, and becomes valid; ST is lost; KEY, the
round keys and everything else stay. -/
def Obligations.KtgenDerivesKt : Prop :=
  ∀ s : State, s.Ready → s.KeyLoaded →
    ∃ t, exec .ktgen s = .next t ∧
      t = { s with kt := t.kt, ktv := true, st := t.st, stv := t.stv, freeDraws := t.freeDraws } ∧
        (∀ i, flagAt t.stv i = false) ∧ (∀ i, s.nb.toNat ≤ i → wordAt t.kt i = wordAt s.kt i) ∧
        ∃ seed k0 k1 : Block,
          (seed.length = s.nb.toNat ∧ seed.getD 0 0#64 = BitVec.ofNat 64 (s.nb.toNat + s.nk.toNat + 1) ∧
            ∀ i, 1 ≤ i → seed.getD i 0#64 = 0#64) ∧
          k0 = (List.range s.nb.toNat).map (wordAt s.key) ∧
          k1 = (List.range s.nb.toNat).map (fun i => wordAt s.key (i + (s.nk.toNat - s.nb.toNat))) ∧
          t.ktBlock = encRound tables (addW (encRound tables (xorW (encRound tables (addW seed k0)) k1)) k0)

/-- EVENKEYS (R135) with the key loaded and Kt valid: every even round key takes the value of R133 and is the only kind
that is valid afterwards; ST is lost; KEY, KT and everything else stay. -/
def Obligations.EvenkeysDerivesTheEvenKeys : Prop :=
  ∀ s : State, s.Ready → s.KeyLoaded → s.ktv = true →
    ∃ t, exec .evenkeys s = .next t ∧
      t = { s with rk := t.rk, rkv := t.rkv, st := t.st, stv := t.stv, freeDraws := t.freeDraws } ∧
        (∀ i, flagAt t.stv i = false) ∧
        (∀ r, flagAt t.rkv r = decide (r % 2 = 0 ∧ r ≤ s.nr.toNat)) ∧ t.keyed = false ∧
        ∀ m, 2 * m ≤ s.nr.toNat →
          t.roundKey (2 * m) = evenKeyClosed tables s.nb.toNat s.nk.toNat s.keyBlock s.ktBlock m

/-- ODDKEYS (R136) with the even keys 0..nr-2 valid: byte `j` of every odd key is byte `(j + 2*nb + 3) mod 8*nb` of the
even key before it, and the odd key becomes valid; every other entry, ST and everything else stay, and KEYED follows the
last even key. -/
def Obligations.OddkeysRotatesTheEvenKeys : Prop :=
  ∀ s : State, s.Ready → (∀ m, 2 * m < s.nr.toNat → flagAt s.rkv (2 * m) = true) →
    ∃ t, exec .oddkeys s = .next t ∧ t = { s with rk := t.rk, rkv := t.rkv } ∧
      (∀ m, 2 * m < s.nr.toNat → flagAt t.rkv (2 * m + 1) = true ∧ ∀ j < 8 * s.nb.toNat,
        (bytes (t.roundKey (2 * m + 1))).getD j 0#8
          = (bytes (s.roundKey (2 * m))).getD ((j + (2 * s.nb.toNat + 3)) % (8 * s.nb.toNat)) 0#8) ∧
      (∀ r, r % 2 = 0 ∨ s.nr.toNat < r → t.rkEntry r = s.rkEntry r ∧ flagAt t.rkv r = flagAt s.rkv r) ∧
      (∀ r i, s.nb.toNat ≤ i → wordAt (t.rkEntry r) i = wordAt (s.rkEntry r) i) ∧
      t.keyed = flagAt s.rkv s.nr.toNat

/-- EXPAND gives the state that KTGEN; EVENKEYS; ODDKEYS gives (R137): with the key loaded it completes, in a state that
agrees with theirs on all that can be observed; KT and exactly the round keys 0..nr are valid, ST is lost, and
everything else stays. -/
def Obligations.ExpandIsTheThreeStepsInOne : Prop :=
  ∀ s : State, s.Ready → s.KeyLoaded →
    ∃ t u, exec .expand s = .next t ∧ execAll [.ktgen, .evenkeys, .oddkeys] s = .next u ∧ t.Agree u ∧
      t = { s with
              kt := t.kt, ktv := true, rk := t.rk, rkv := t.rkv, st := t.st, stv := t.stv, freeDraws := t.freeDraws } ∧
        (∀ i, flagAt t.stv i = false) ∧ (∀ r, flagAt t.rkv r = decide (r ≤ s.nr.toNat)) ∧ t.keyed = true
end

