-- ==== Sys2Proof/Laws/Operands.lean ====
section
/-! SUPPORT. The small lemmas of the operand forms: single words and flags of a register file, blocks read and written,
and the byte view of a word. -/

namespace Sys2Proof.Machine

/-! ### Words and flags -/

theorem wordAt_of_lt (v : Vector Word 8) {i : Nat} (h : i < 8) : wordAt v i = v[i] := by
  simp [wordAt, h]

theorem wordAt_of_ge (v : Vector Word 8) {i : Nat} (h : 8 ≤ i) : wordAt v i = 0#64 := by
  simp [wordAt, h]

/-- Two register files with the same words are equal. -/
theorem wordAt_ext {v v' : Vector Word 8} (h : ∀ i < 8, wordAt v i = wordAt v' i) : v = v' := by
  ext i hi
  have := h i hi
  rw [wordAt_of_lt _ hi, wordAt_of_lt _ hi] at this
  simp [this]

theorem wordAt_setIfInBounds (v : Vector Word 8) (w : Nat) (x : Word) (i : Nat) :
    wordAt (v.setIfInBounds w x) i = if i = w ∧ w < 8 then x else wordAt v i := by
  rcases Nat.lt_or_ge i 8 with hi | hi
  · by_cases h : i = w
    · subst h; simp [wordAt, hi]
    · simp [wordAt, hi, h, Ne.symm h]
  · have : ¬ (i = w ∧ w < 8) := by omega
    simp [wordAt_of_ge _ hi, this]

theorem flagAt_of_lt {n : Nat} (v : Vector Bool n) {i : Nat} (h : i < n) : flagAt v i = v[i] := by
  simp [flagAt, h]

theorem flagAt_of_ge {n : Nat} (v : Vector Bool n) {i : Nat} (h : n ≤ i) : flagAt v i = false := by
  simp [flagAt, h]

theorem flagAt_setIfInBounds {n : Nat} (v : Vector Bool n) (w : Nat) (x : Bool) (i : Nat) :
    flagAt (v.setIfInBounds w x) i = if i = w ∧ w < n then x else flagAt v i := by
  rcases Nat.lt_or_ge i n with hi | hi
  · by_cases h : i = w
    · subst h; simp [flagAt, hi]
    · simp [flagAt, hi, h, Ne.symm h]
  · have : ¬ (i = w ∧ w < n) := by omega
    simp [flagAt_of_ge _ hi, this]

@[simp] theorem flagAt_replicate_false (n i : Nat) : flagAt (Vector.replicate n false) i = false := by
  rcases Nat.lt_or_ge i n with hi | hi <;> simp [flagAt, hi]

/-- `allValid` says that each of the first `n` flags is 1. -/
theorem allValid_iff {k : Nat} (v : Vector Bool k) (n : Nat) : allValid v n = true ↔ ∀ i < n, flagAt v i = true := by
  simp [allValid]

/-! ### Blocks -/

@[simp] theorem length_readBlock (v : Vector Word 8) (n : Nat) : (readBlock v n).length = min n 8 := by
  simp [readBlock]

/-- A block read holds the words of the register file. -/
theorem getD_readBlock (v : Vector Word 8) {n i : Nat} (h : i < n) : (readBlock v n).getD i 0#64 = wordAt v i := by
  rcases Nat.lt_or_ge i 8 with hi | hi
  · simp [readBlock, wordAt, h, hi]
  · simp [readBlock, wordAt_of_ge _ hi, h, hi]

/-- A block written replaces the first words of the register file and no other. -/
theorem wordAt_writeBlock (v : Vector Word 8) (b : Block) {i : Nat} (h : i < 8) :
    wordAt (writeBlock v b) i = if i < b.length then b.getD i 0#64 else wordAt v i := by
  by_cases hb : i < b.length <;> simp [writeBlock, wordAt, h, hb]

/-- Reading back a block of at most eight words gives the block. -/
theorem readBlock_writeBlock (v : Vector Word 8) (b : Block) (h : b.length ≤ 8) :
    readBlock (writeBlock v b) b.length = b := by
  apply List.ext_getElem
  · simp [h]
  · intro i h1 h2
    simp [readBlock, writeBlock, h2]

/-- Writing back the block that was read changes nothing. -/
theorem writeBlock_readBlock (v : Vector Word 8) (n : Nat) : writeBlock v (readBlock v n) = v := by
  apply wordAt_ext
  intro i hi
  rw [wordAt_writeBlock _ _ hi]
  split
  · rename_i h
    rw [length_readBlock] at h
    exact getD_readBlock v (by omega)
  · rfl

/-- A block overwrites an earlier block of the same length. -/
theorem writeBlock_writeBlock (v : Vector Word 8) (b c : Block) (h : b.length = c.length) :
    writeBlock (writeBlock v b) c = writeBlock v c := by
  apply wordAt_ext
  intro i hi
  rw [wordAt_writeBlock _ _ hi, wordAt_writeBlock _ _ hi, wordAt_writeBlock _ _ hi, h]
  split <;> simp

/-! ### The byte view -/

/-- Byte `j` of the word built from `f` is `f j`. -/
theorem byteOf_ofBytes (f : Nat → Byte) {j : Nat} (h : j < 8) : byteOf (ofBytes f) j = f j := by
  ext i hi
  obtain rfl | rfl | rfl | rfl | rfl | rfl | rfl | rfl :
      j = 0 ∨ j = 1 ∨ j = 2 ∨ j = 3 ∨ j = 4 ∨ j = 5 ∨ j = 6 ∨ j = 7 := by omega
  all_goals
    simp only [byteOf, ofBytes, BitVec.getElem_extractLsb', BitVec.getLsbD_append]
    have e : ∀ k : Nat, k < 8 → (f k).getLsbD i = (f k)[i] := fun k _ => by rw [BitVec.getLsbD_eq_getElem hi]
    grind

/-- Two words with the same eight bytes are equal. -/
theorem word_ext_byteOf {w w' : Word} (h : ∀ j < 8, byteOf w j = byteOf w' j) : w = w' := by
  ext i hi
  have hj := congrArg (fun b : Byte => b.getLsbD (i % 8)) (h (i / 8) (by omega))
  have e : 8 * (i / 8) + i % 8 = i := by omega
  simpa [byteOf, BitVec.getLsbD_extractLsb', Nat.mod_lt, e, BitVec.getLsbD_eq_getElem hi] using hj

end Sys2Proof.Machine
end

