-- ==== Sys2Proof/Laws/Datapath.lean ====
section
/-! SUPPORT. The lengths of the datapath functions' results: a vector of `nb` words stays one (spec/00_scope.md rule
R13). -/

namespace Sys2Proof.Machine

@[simp] theorem length_subBytes (T : Config.Tables) (v : Block) : (subBytes T v).length = v.length := by
  simp [subBytes]

@[simp] theorem length_invSubBytes (T : Config.Tables) (v : Block) : (invSubBytes T v).length = v.length := by
  simp [invSubBytes]

@[simp] theorem length_moveColumns (src : Nat → Nat → Nat → Nat) (v : Block) :
    (moveColumns src v).length = v.length := by
  simp [moveColumns]

@[simp] theorem length_shiftRows (v : Block) : (shiftRows v).length = v.length := length_moveColumns ..

@[simp] theorem length_invShiftRows (v : Block) : (invShiftRows v).length = v.length := length_moveColumns ..

@[simp] theorem length_mixColumns (T : Config.Tables) (v : Block) : (mixColumns T v).length = v.length := by
  simp [mixColumns]

@[simp] theorem length_invMixColumns (T : Config.Tables) (v : Block) : (invMixColumns T v).length = v.length := by
  simp [invMixColumns]

@[simp] theorem length_encRound (T : Config.Tables) (v : Block) : (encRound T v).length = v.length := by
  simp [encRound]

@[simp] theorem length_decRound (T : Config.Tables) (v : Block) : (decRound T v).length = v.length := by
  simp [decRound]

@[simp] theorem length_addW (v k : Block) : (addW v k).length = min v.length k.length := by simp [addW]

@[simp] theorem length_subW (v k : Block) : (subW v k).length = min v.length k.length := by simp [subW]

@[simp] theorem length_xorW (v k : Block) : (xorW v k).length = min v.length k.length := by simp [xorW]

/-- Enciphering keeps the length, where every round key has it. -/
theorem length_encipher (T : Config.Tables) (rk : Nat → Block) (nr : Nat) (p : Block)
    (h : ∀ r, (rk r).length = p.length) : (encipher T rk nr p).length = p.length := by
  have inner : ∀ (l : List Nat) (s : Block), s.length = p.length →
      (l.foldl (fun s round => xorW (encRound T s) (rk round)) s).length = p.length := by
    intro l
    induction l with
    | nil => exact fun s hs => hs
    | cons r l ih => exact fun s hs => ih _ (by simp [h, hs])
  simp [encipher, h, inner]

/-- Deciphering keeps the length, where every round key has it. -/
theorem length_decipher (T : Config.Tables) (rk : Nat → Block) (nr : Nat) (c : Block)
    (h : ∀ r, (rk r).length = c.length) : (decipher T rk nr c).length = c.length := by
  have inner : ∀ (l : List Nat) (s : Block), s.length = c.length →
      (l.foldl (fun s round => xorW (decRound T s) (rk round)) s).length = c.length := by
    intro l
    induction l with
    | nil => exact fun s hs => hs
    | cons r l ih => exact fun s hs => ih _ (by simp [h, hs])
  simp only [decipher, length_subW, length_decRound, h]
  rw [inner _ _ (by simp [h]), Nat.min_self]

@[simp] theorem length_twoRounds (T : Config.Tables) (kAdd kXor s : Block) :
    (twoRounds T kAdd kXor s).length = min (min (min s.length kAdd.length) kXor.length) kAdd.length := by
  simp [twoRounds]

/-- Kt has `nb` words, where the key has at least `nb` (R130). -/
theorem length_ktGen (T : Config.Tables) (nb nk : Nat) (key : Block) (hnb : 0 < nb) (hk : key.length = nk)
    (h : nb ≤ nk) : (ktGen T nb nk key).length = nb := by
  by_cases hd : nk = 2 * nb
  · simp [ktGen, ktSeed, hd]; omega
  · simp [ktGen, ktSeed, hd]; omega

@[simp] theorem length_tmvShift (tmv : Block) : (tmvShift tmv).length = tmv.length := by simp [tmvShift]

@[simp] theorem length_rotateWords (wk : Block) : (rotateWords wk).length = wk.length := by
  cases wk <;> simp [rotateWords]

@[simp] theorem length_rotateBytes (k : Nat) (b : List Byte) : (rotateBytes k b).length = b.length := by
  simp [rotateBytes]

/-- A derived round key has as many words as the shortest of its three operands (R132). -/
theorem length_derive (T : Config.Tables) (kt slice tmv : Block) :
    (derive T kt slice tmv).length = min slice.length (min kt.length tmv.length) := by
  simp [derive]

end Sys2Proof.Machine
end

