-- ==== Sys2Proof/Laws/State.lean ====
section
/-! SUPPORT. One lemma per field per update of the state, each true by unfolding, so that no later proof unfolds a record
update. -/

namespace Sys2Proof.Machine

variable (s : State)

/-! ### errorEntry -/

@[simp] theorem errorEntry_st (code : ErrorCode) : (errorEntry code s).st = s.st := rfl
@[simp] theorem errorEntry_stv (code : ErrorCode) : (errorEntry code s).stv = s.stv := rfl
@[simp] theorem errorEntry_key (code : ErrorCode) : (errorEntry code s).key = s.key := rfl
@[simp] theorem errorEntry_keyv (code : ErrorCode) : (errorEntry code s).keyv = s.keyv := rfl
@[simp] theorem errorEntry_aux (code : ErrorCode) : (errorEntry code s).aux = s.aux := rfl
@[simp] theorem errorEntry_auxv (code : ErrorCode) : (errorEntry code s).auxv = s.auxv := rfl
@[simp] theorem errorEntry_kt (code : ErrorCode) : (errorEntry code s).kt = s.kt := rfl
@[simp] theorem errorEntry_ktv (code : ErrorCode) : (errorEntry code s).ktv = s.ktv := rfl
@[simp] theorem errorEntry_rk (code : ErrorCode) : (errorEntry code s).rk = s.rk := rfl
@[simp] theorem errorEntry_rkv (code : ErrorCode) : (errorEntry code s).rkv = s.rkv := rfl
@[simp] theorem errorEntry_dout (code : ErrorCode) : (errorEntry code s).dout = s.dout := rfl
@[simp] theorem errorEntry_ctx (code : ErrorCode) : (errorEntry code s).ctx = s.ctx := rfl
@[simp] theorem errorEntry_nb (code : ErrorCode) : (errorEntry code s).nb = s.nb := rfl
@[simp] theorem errorEntry_nk (code : ErrorCode) : (errorEntry code s).nk = s.nk := rfl
@[simp] theorem errorEntry_nr (code : ErrorCode) : (errorEntry code s).nr = s.nr := rfl
@[simp] theorem errorEntry_err (code : ErrorCode) : (errorEntry code s).err = true := rfl
@[simp] theorem errorEntry_ecode (code : ErrorCode) : (errorEntry code s).ecode = code.bits := rfl
@[simp] theorem errorEntry_eopc (code : ErrorCode) : (errorEntry code s).eopc = opcField s.cmd := rfl
@[simp] theorem errorEntry_cmd (code : ErrorCode) : (errorEntry code s).cmd = s.cmd := rfl
@[simp] theorem errorEntry_din (code : ErrorCode) : (errorEntry code s).din = s.din := rfl
@[simp] theorem errorEntry_pending (code : ErrorCode) : (errorEntry code s).pending = s.pending := rfl
@[simp] theorem errorEntry_freeDraws (code : ErrorCode) : (errorEntry code s).freeDraws = s.freeDraws := rfl

/-! ### clearError -/

@[simp] theorem clearError_st : (clearError s).st = s.st := rfl
@[simp] theorem clearError_stv : (clearError s).stv = s.stv := rfl
@[simp] theorem clearError_key : (clearError s).key = s.key := rfl
@[simp] theorem clearError_keyv : (clearError s).keyv = s.keyv := rfl
@[simp] theorem clearError_aux : (clearError s).aux = s.aux := rfl
@[simp] theorem clearError_auxv : (clearError s).auxv = s.auxv := rfl
@[simp] theorem clearError_kt : (clearError s).kt = s.kt := rfl
@[simp] theorem clearError_ktv : (clearError s).ktv = s.ktv := rfl
@[simp] theorem clearError_rk : (clearError s).rk = s.rk := rfl
@[simp] theorem clearError_rkv : (clearError s).rkv = s.rkv := rfl
@[simp] theorem clearError_dout : (clearError s).dout = s.dout := rfl
@[simp] theorem clearError_ctx : (clearError s).ctx = s.ctx := rfl
@[simp] theorem clearError_nb : (clearError s).nb = s.nb := rfl
@[simp] theorem clearError_nk : (clearError s).nk = s.nk := rfl
@[simp] theorem clearError_nr : (clearError s).nr = s.nr := rfl
@[simp] theorem clearError_err : (clearError s).err = false := rfl
@[simp] theorem clearError_ecode : (clearError s).ecode = 0#4 := rfl
@[simp] theorem clearError_eopc : (clearError s).eopc = 0#8 := rfl
@[simp] theorem clearError_cmd : (clearError s).cmd = s.cmd := rfl
@[simp] theorem clearError_din : (clearError s).din = s.din := rfl
@[simp] theorem clearError_pending : (clearError s).pending = s.pending := rfl
@[simp] theorem clearError_freeDraws : (clearError s).freeDraws = s.freeDraws := rfl

/-! ### setDout -/

@[simp] theorem setDout_st (v : Word) : (setDout v s).st = s.st := rfl
@[simp] theorem setDout_stv (v : Word) : (setDout v s).stv = s.stv := rfl
@[simp] theorem setDout_key (v : Word) : (setDout v s).key = s.key := rfl
@[simp] theorem setDout_keyv (v : Word) : (setDout v s).keyv = s.keyv := rfl
@[simp] theorem setDout_aux (v : Word) : (setDout v s).aux = s.aux := rfl
@[simp] theorem setDout_auxv (v : Word) : (setDout v s).auxv = s.auxv := rfl
@[simp] theorem setDout_kt (v : Word) : (setDout v s).kt = s.kt := rfl
@[simp] theorem setDout_ktv (v : Word) : (setDout v s).ktv = s.ktv := rfl
@[simp] theorem setDout_rk (v : Word) : (setDout v s).rk = s.rk := rfl
@[simp] theorem setDout_rkv (v : Word) : (setDout v s).rkv = s.rkv := rfl
@[simp] theorem setDout_dout (v : Word) : (setDout v s).dout = v := rfl
@[simp] theorem setDout_ctx (v : Word) : (setDout v s).ctx = s.ctx := rfl
@[simp] theorem setDout_nb (v : Word) : (setDout v s).nb = s.nb := rfl
@[simp] theorem setDout_nk (v : Word) : (setDout v s).nk = s.nk := rfl
@[simp] theorem setDout_nr (v : Word) : (setDout v s).nr = s.nr := rfl
@[simp] theorem setDout_err (v : Word) : (setDout v s).err = s.err := rfl
@[simp] theorem setDout_ecode (v : Word) : (setDout v s).ecode = s.ecode := rfl
@[simp] theorem setDout_eopc (v : Word) : (setDout v s).eopc = s.eopc := rfl
@[simp] theorem setDout_cmd (v : Word) : (setDout v s).cmd = s.cmd := rfl
@[simp] theorem setDout_din (v : Word) : (setDout v s).din = s.din := rfl
@[simp] theorem setDout_pending (v : Word) : (setDout v s).pending = s.pending := rfl
@[simp] theorem setDout_freeDraws (v : Word) : (setDout v s).freeDraws = s.freeDraws := rfl

/-! ### loadSt -/

@[simp] theorem loadSt_st (w : Nat) (v : Word) : (loadSt w v s).st = s.st.setIfInBounds w v := rfl
@[simp] theorem loadSt_stv (w : Nat) (v : Word) : (loadSt w v s).stv = s.stv.setIfInBounds w true := rfl
@[simp] theorem loadSt_key (w : Nat) (v : Word) : (loadSt w v s).key = s.key := rfl
@[simp] theorem loadSt_keyv (w : Nat) (v : Word) : (loadSt w v s).keyv = s.keyv := rfl
@[simp] theorem loadSt_aux (w : Nat) (v : Word) : (loadSt w v s).aux = s.aux := rfl
@[simp] theorem loadSt_auxv (w : Nat) (v : Word) : (loadSt w v s).auxv = s.auxv := rfl
@[simp] theorem loadSt_kt (w : Nat) (v : Word) : (loadSt w v s).kt = s.kt := rfl
@[simp] theorem loadSt_ktv (w : Nat) (v : Word) : (loadSt w v s).ktv = s.ktv := rfl
@[simp] theorem loadSt_rk (w : Nat) (v : Word) : (loadSt w v s).rk = s.rk := rfl
@[simp] theorem loadSt_rkv (w : Nat) (v : Word) : (loadSt w v s).rkv = s.rkv := rfl
@[simp] theorem loadSt_dout (w : Nat) (v : Word) : (loadSt w v s).dout = s.dout := rfl
@[simp] theorem loadSt_ctx (w : Nat) (v : Word) : (loadSt w v s).ctx = s.ctx := rfl
@[simp] theorem loadSt_nb (w : Nat) (v : Word) : (loadSt w v s).nb = s.nb := rfl
@[simp] theorem loadSt_nk (w : Nat) (v : Word) : (loadSt w v s).nk = s.nk := rfl
@[simp] theorem loadSt_nr (w : Nat) (v : Word) : (loadSt w v s).nr = s.nr := rfl
@[simp] theorem loadSt_err (w : Nat) (v : Word) : (loadSt w v s).err = s.err := rfl
@[simp] theorem loadSt_ecode (w : Nat) (v : Word) : (loadSt w v s).ecode = s.ecode := rfl
@[simp] theorem loadSt_eopc (w : Nat) (v : Word) : (loadSt w v s).eopc = s.eopc := rfl
@[simp] theorem loadSt_cmd (w : Nat) (v : Word) : (loadSt w v s).cmd = s.cmd := rfl
@[simp] theorem loadSt_din (w : Nat) (v : Word) : (loadSt w v s).din = s.din := rfl
@[simp] theorem loadSt_pending (w : Nat) (v : Word) : (loadSt w v s).pending = s.pending := rfl
@[simp] theorem loadSt_freeDraws (w : Nat) (v : Word) : (loadSt w v s).freeDraws = s.freeDraws := rfl

/-! ### loadKey -/

@[simp] theorem loadKey_st (w : Nat) (v : Word) : (loadKey w v s).st = s.st := rfl
@[simp] theorem loadKey_stv (w : Nat) (v : Word) : (loadKey w v s).stv = s.stv := rfl
@[simp] theorem loadKey_key (w : Nat) (v : Word) : (loadKey w v s).key = s.key.setIfInBounds w v := rfl
@[simp] theorem loadKey_keyv (w : Nat) (v : Word) : (loadKey w v s).keyv = s.keyv.setIfInBounds w true := rfl
@[simp] theorem loadKey_aux (w : Nat) (v : Word) : (loadKey w v s).aux = s.aux := rfl
@[simp] theorem loadKey_auxv (w : Nat) (v : Word) : (loadKey w v s).auxv = s.auxv := rfl
@[simp] theorem loadKey_kt (w : Nat) (v : Word) : (loadKey w v s).kt = s.kt := rfl
@[simp] theorem loadKey_ktv (w : Nat) (v : Word) : (loadKey w v s).ktv = s.ktv := rfl
@[simp] theorem loadKey_rk (w : Nat) (v : Word) : (loadKey w v s).rk = s.rk := rfl
@[simp] theorem loadKey_rkv (w : Nat) (v : Word) : (loadKey w v s).rkv = s.rkv := rfl
@[simp] theorem loadKey_dout (w : Nat) (v : Word) : (loadKey w v s).dout = s.dout := rfl
@[simp] theorem loadKey_ctx (w : Nat) (v : Word) : (loadKey w v s).ctx = s.ctx := rfl
@[simp] theorem loadKey_nb (w : Nat) (v : Word) : (loadKey w v s).nb = s.nb := rfl
@[simp] theorem loadKey_nk (w : Nat) (v : Word) : (loadKey w v s).nk = s.nk := rfl
@[simp] theorem loadKey_nr (w : Nat) (v : Word) : (loadKey w v s).nr = s.nr := rfl
@[simp] theorem loadKey_err (w : Nat) (v : Word) : (loadKey w v s).err = s.err := rfl
@[simp] theorem loadKey_ecode (w : Nat) (v : Word) : (loadKey w v s).ecode = s.ecode := rfl
@[simp] theorem loadKey_eopc (w : Nat) (v : Word) : (loadKey w v s).eopc = s.eopc := rfl
@[simp] theorem loadKey_cmd (w : Nat) (v : Word) : (loadKey w v s).cmd = s.cmd := rfl
@[simp] theorem loadKey_din (w : Nat) (v : Word) : (loadKey w v s).din = s.din := rfl
@[simp] theorem loadKey_pending (w : Nat) (v : Word) : (loadKey w v s).pending = s.pending := rfl
@[simp] theorem loadKey_freeDraws (w : Nat) (v : Word) : (loadKey w v s).freeDraws = s.freeDraws := rfl

/-! ### loadAux -/

@[simp] theorem loadAux_st (w : Nat) (v : Word) : (loadAux w v s).st = s.st := rfl
@[simp] theorem loadAux_stv (w : Nat) (v : Word) : (loadAux w v s).stv = s.stv := rfl
@[simp] theorem loadAux_key (w : Nat) (v : Word) : (loadAux w v s).key = s.key := rfl
@[simp] theorem loadAux_keyv (w : Nat) (v : Word) : (loadAux w v s).keyv = s.keyv := rfl
@[simp] theorem loadAux_aux (w : Nat) (v : Word) : (loadAux w v s).aux = s.aux.setIfInBounds w v := rfl
@[simp] theorem loadAux_auxv (w : Nat) (v : Word) : (loadAux w v s).auxv = s.auxv.setIfInBounds w true := rfl
@[simp] theorem loadAux_kt (w : Nat) (v : Word) : (loadAux w v s).kt = s.kt := rfl
@[simp] theorem loadAux_ktv (w : Nat) (v : Word) : (loadAux w v s).ktv = s.ktv := rfl
@[simp] theorem loadAux_rk (w : Nat) (v : Word) : (loadAux w v s).rk = s.rk := rfl
@[simp] theorem loadAux_rkv (w : Nat) (v : Word) : (loadAux w v s).rkv = s.rkv := rfl
@[simp] theorem loadAux_dout (w : Nat) (v : Word) : (loadAux w v s).dout = s.dout := rfl
@[simp] theorem loadAux_ctx (w : Nat) (v : Word) : (loadAux w v s).ctx = s.ctx := rfl
@[simp] theorem loadAux_nb (w : Nat) (v : Word) : (loadAux w v s).nb = s.nb := rfl
@[simp] theorem loadAux_nk (w : Nat) (v : Word) : (loadAux w v s).nk = s.nk := rfl
@[simp] theorem loadAux_nr (w : Nat) (v : Word) : (loadAux w v s).nr = s.nr := rfl
@[simp] theorem loadAux_err (w : Nat) (v : Word) : (loadAux w v s).err = s.err := rfl
@[simp] theorem loadAux_ecode (w : Nat) (v : Word) : (loadAux w v s).ecode = s.ecode := rfl
@[simp] theorem loadAux_eopc (w : Nat) (v : Word) : (loadAux w v s).eopc = s.eopc := rfl
@[simp] theorem loadAux_cmd (w : Nat) (v : Word) : (loadAux w v s).cmd = s.cmd := rfl
@[simp] theorem loadAux_din (w : Nat) (v : Word) : (loadAux w v s).din = s.din := rfl
@[simp] theorem loadAux_pending (w : Nat) (v : Word) : (loadAux w v s).pending = s.pending := rfl
@[simp] theorem loadAux_freeDraws (w : Nat) (v : Word) : (loadAux w v s).freeDraws = s.freeDraws := rfl

/-! ### writeSt -/

@[simp] theorem writeSt_st (b : Block) : (writeSt b s).st = writeBlock s.st b := rfl
@[simp] theorem writeSt_stv (b : Block) : (writeSt b s).stv = s.stv := rfl
@[simp] theorem writeSt_key (b : Block) : (writeSt b s).key = s.key := rfl
@[simp] theorem writeSt_keyv (b : Block) : (writeSt b s).keyv = s.keyv := rfl
@[simp] theorem writeSt_aux (b : Block) : (writeSt b s).aux = s.aux := rfl
@[simp] theorem writeSt_auxv (b : Block) : (writeSt b s).auxv = s.auxv := rfl
@[simp] theorem writeSt_kt (b : Block) : (writeSt b s).kt = s.kt := rfl
@[simp] theorem writeSt_ktv (b : Block) : (writeSt b s).ktv = s.ktv := rfl
@[simp] theorem writeSt_rk (b : Block) : (writeSt b s).rk = s.rk := rfl
@[simp] theorem writeSt_rkv (b : Block) : (writeSt b s).rkv = s.rkv := rfl
@[simp] theorem writeSt_dout (b : Block) : (writeSt b s).dout = s.dout := rfl
@[simp] theorem writeSt_ctx (b : Block) : (writeSt b s).ctx = s.ctx := rfl
@[simp] theorem writeSt_nb (b : Block) : (writeSt b s).nb = s.nb := rfl
@[simp] theorem writeSt_nk (b : Block) : (writeSt b s).nk = s.nk := rfl
@[simp] theorem writeSt_nr (b : Block) : (writeSt b s).nr = s.nr := rfl
@[simp] theorem writeSt_err (b : Block) : (writeSt b s).err = s.err := rfl
@[simp] theorem writeSt_ecode (b : Block) : (writeSt b s).ecode = s.ecode := rfl
@[simp] theorem writeSt_eopc (b : Block) : (writeSt b s).eopc = s.eopc := rfl
@[simp] theorem writeSt_cmd (b : Block) : (writeSt b s).cmd = s.cmd := rfl
@[simp] theorem writeSt_din (b : Block) : (writeSt b s).din = s.din := rfl
@[simp] theorem writeSt_pending (b : Block) : (writeSt b s).pending = s.pending := rfl
@[simp] theorem writeSt_freeDraws (b : Block) : (writeSt b s).freeDraws = s.freeDraws := rfl

/-! ### writeKt -/

@[simp] theorem writeKt_st (b : Block) : (writeKt b s).st = s.st := rfl
@[simp] theorem writeKt_stv (b : Block) : (writeKt b s).stv = s.stv := rfl
@[simp] theorem writeKt_key (b : Block) : (writeKt b s).key = s.key := rfl
@[simp] theorem writeKt_keyv (b : Block) : (writeKt b s).keyv = s.keyv := rfl
@[simp] theorem writeKt_aux (b : Block) : (writeKt b s).aux = s.aux := rfl
@[simp] theorem writeKt_auxv (b : Block) : (writeKt b s).auxv = s.auxv := rfl
@[simp] theorem writeKt_kt (b : Block) : (writeKt b s).kt = writeBlock s.kt b := rfl
@[simp] theorem writeKt_ktv (b : Block) : (writeKt b s).ktv = true := rfl
@[simp] theorem writeKt_rk (b : Block) : (writeKt b s).rk = s.rk := rfl
@[simp] theorem writeKt_rkv (b : Block) : (writeKt b s).rkv = s.rkv := rfl
@[simp] theorem writeKt_dout (b : Block) : (writeKt b s).dout = s.dout := rfl
@[simp] theorem writeKt_ctx (b : Block) : (writeKt b s).ctx = s.ctx := rfl
@[simp] theorem writeKt_nb (b : Block) : (writeKt b s).nb = s.nb := rfl
@[simp] theorem writeKt_nk (b : Block) : (writeKt b s).nk = s.nk := rfl
@[simp] theorem writeKt_nr (b : Block) : (writeKt b s).nr = s.nr := rfl
@[simp] theorem writeKt_err (b : Block) : (writeKt b s).err = s.err := rfl
@[simp] theorem writeKt_ecode (b : Block) : (writeKt b s).ecode = s.ecode := rfl
@[simp] theorem writeKt_eopc (b : Block) : (writeKt b s).eopc = s.eopc := rfl
@[simp] theorem writeKt_cmd (b : Block) : (writeKt b s).cmd = s.cmd := rfl
@[simp] theorem writeKt_din (b : Block) : (writeKt b s).din = s.din := rfl
@[simp] theorem writeKt_pending (b : Block) : (writeKt b s).pending = s.pending := rfl
@[simp] theorem writeKt_freeDraws (b : Block) : (writeKt b s).freeDraws = s.freeDraws := rfl

/-! ### writeRk -/

@[simp] theorem writeRk_st (r : Nat) (b : Block) : (writeRk r b s).st = s.st := rfl
@[simp] theorem writeRk_stv (r : Nat) (b : Block) : (writeRk r b s).stv = s.stv := rfl
@[simp] theorem writeRk_key (r : Nat) (b : Block) : (writeRk r b s).key = s.key := rfl
@[simp] theorem writeRk_keyv (r : Nat) (b : Block) : (writeRk r b s).keyv = s.keyv := rfl
@[simp] theorem writeRk_aux (r : Nat) (b : Block) : (writeRk r b s).aux = s.aux := rfl
@[simp] theorem writeRk_auxv (r : Nat) (b : Block) : (writeRk r b s).auxv = s.auxv := rfl
@[simp] theorem writeRk_kt (r : Nat) (b : Block) : (writeRk r b s).kt = s.kt := rfl
@[simp] theorem writeRk_ktv (r : Nat) (b : Block) : (writeRk r b s).ktv = s.ktv := rfl
@[simp] theorem writeRk_rk (r : Nat) (b : Block) : (writeRk r b s).rk = s.rk.setIfInBounds r (writeBlock (s.rkEntry r) b) := rfl
@[simp] theorem writeRk_rkv (r : Nat) (b : Block) : (writeRk r b s).rkv = s.rkv.setIfInBounds r true := rfl
@[simp] theorem writeRk_dout (r : Nat) (b : Block) : (writeRk r b s).dout = s.dout := rfl
@[simp] theorem writeRk_ctx (r : Nat) (b : Block) : (writeRk r b s).ctx = s.ctx := rfl
@[simp] theorem writeRk_nb (r : Nat) (b : Block) : (writeRk r b s).nb = s.nb := rfl
@[simp] theorem writeRk_nk (r : Nat) (b : Block) : (writeRk r b s).nk = s.nk := rfl
@[simp] theorem writeRk_nr (r : Nat) (b : Block) : (writeRk r b s).nr = s.nr := rfl
@[simp] theorem writeRk_err (r : Nat) (b : Block) : (writeRk r b s).err = s.err := rfl
@[simp] theorem writeRk_ecode (r : Nat) (b : Block) : (writeRk r b s).ecode = s.ecode := rfl
@[simp] theorem writeRk_eopc (r : Nat) (b : Block) : (writeRk r b s).eopc = s.eopc := rfl
@[simp] theorem writeRk_cmd (r : Nat) (b : Block) : (writeRk r b s).cmd = s.cmd := rfl
@[simp] theorem writeRk_din (r : Nat) (b : Block) : (writeRk r b s).din = s.din := rfl
@[simp] theorem writeRk_pending (r : Nat) (b : Block) : (writeRk r b s).pending = s.pending := rfl
@[simp] theorem writeRk_freeDraws (r : Nat) (b : Block) : (writeRk r b s).freeDraws = s.freeDraws := rfl

/-! ### setConfig -/

@[simp] theorem setConfig_st (ctx : Bool) (nb nk : BitVec 4) (nr : BitVec 5) : (setConfig ctx nb nk nr s).st = s.st := rfl
@[simp] theorem setConfig_stv (ctx : Bool) (nb nk : BitVec 4) (nr : BitVec 5) : (setConfig ctx nb nk nr s).stv = s.stv := rfl
@[simp] theorem setConfig_key (ctx : Bool) (nb nk : BitVec 4) (nr : BitVec 5) : (setConfig ctx nb nk nr s).key = s.key := rfl
@[simp] theorem setConfig_keyv (ctx : Bool) (nb nk : BitVec 4) (nr : BitVec 5) : (setConfig ctx nb nk nr s).keyv = s.keyv := rfl
@[simp] theorem setConfig_aux (ctx : Bool) (nb nk : BitVec 4) (nr : BitVec 5) : (setConfig ctx nb nk nr s).aux = s.aux := rfl
@[simp] theorem setConfig_auxv (ctx : Bool) (nb nk : BitVec 4) (nr : BitVec 5) : (setConfig ctx nb nk nr s).auxv = s.auxv := rfl
@[simp] theorem setConfig_kt (ctx : Bool) (nb nk : BitVec 4) (nr : BitVec 5) : (setConfig ctx nb nk nr s).kt = s.kt := rfl
@[simp] theorem setConfig_ktv (ctx : Bool) (nb nk : BitVec 4) (nr : BitVec 5) : (setConfig ctx nb nk nr s).ktv = s.ktv := rfl
@[simp] theorem setConfig_rk (ctx : Bool) (nb nk : BitVec 4) (nr : BitVec 5) : (setConfig ctx nb nk nr s).rk = s.rk := rfl
@[simp] theorem setConfig_rkv (ctx : Bool) (nb nk : BitVec 4) (nr : BitVec 5) : (setConfig ctx nb nk nr s).rkv = s.rkv := rfl
@[simp] theorem setConfig_dout (ctx : Bool) (nb nk : BitVec 4) (nr : BitVec 5) : (setConfig ctx nb nk nr s).dout = s.dout := rfl
@[simp] theorem setConfig_ctx (ctx : Bool) (nb nk : BitVec 4) (nr : BitVec 5) : (setConfig ctx nb nk nr s).ctx = ctx := rfl
@[simp] theorem setConfig_nb (ctx : Bool) (nb nk : BitVec 4) (nr : BitVec 5) : (setConfig ctx nb nk nr s).nb = nb := rfl
@[simp] theorem setConfig_nk (ctx : Bool) (nb nk : BitVec 4) (nr : BitVec 5) : (setConfig ctx nb nk nr s).nk = nk := rfl
@[simp] theorem setConfig_nr (ctx : Bool) (nb nk : BitVec 4) (nr : BitVec 5) : (setConfig ctx nb nk nr s).nr = nr := rfl
@[simp] theorem setConfig_err (ctx : Bool) (nb nk : BitVec 4) (nr : BitVec 5) : (setConfig ctx nb nk nr s).err = s.err := rfl
@[simp] theorem setConfig_ecode (ctx : Bool) (nb nk : BitVec 4) (nr : BitVec 5) : (setConfig ctx nb nk nr s).ecode = s.ecode := rfl
@[simp] theorem setConfig_eopc (ctx : Bool) (nb nk : BitVec 4) (nr : BitVec 5) : (setConfig ctx nb nk nr s).eopc = s.eopc := rfl
@[simp] theorem setConfig_cmd (ctx : Bool) (nb nk : BitVec 4) (nr : BitVec 5) : (setConfig ctx nb nk nr s).cmd = s.cmd := rfl
@[simp] theorem setConfig_din (ctx : Bool) (nb nk : BitVec 4) (nr : BitVec 5) : (setConfig ctx nb nk nr s).din = s.din := rfl
@[simp] theorem setConfig_pending (ctx : Bool) (nb nk : BitVec 4) (nr : BitVec 5) : (setConfig ctx nb nk nr s).pending = s.pending := rfl
@[simp] theorem setConfig_freeDraws (ctx : Bool) (nb nk : BitVec 4) (nr : BitVec 5) : (setConfig ctx nb nk nr s).freeDraws = s.freeDraws := rfl

/-! ### invalidateSt -/

@[simp] theorem invalidateSt_st : (invalidateSt s).st = freeWords s.freeDraws 0 := rfl
@[simp] theorem invalidateSt_stv : (invalidateSt s).stv = Vector.replicate 8 false := rfl
@[simp] theorem invalidateSt_key : (invalidateSt s).key = s.key := rfl
@[simp] theorem invalidateSt_keyv : (invalidateSt s).keyv = s.keyv := rfl
@[simp] theorem invalidateSt_aux : (invalidateSt s).aux = s.aux := rfl
@[simp] theorem invalidateSt_auxv : (invalidateSt s).auxv = s.auxv := rfl
@[simp] theorem invalidateSt_kt : (invalidateSt s).kt = s.kt := rfl
@[simp] theorem invalidateSt_ktv : (invalidateSt s).ktv = s.ktv := rfl
@[simp] theorem invalidateSt_rk : (invalidateSt s).rk = s.rk := rfl
@[simp] theorem invalidateSt_rkv : (invalidateSt s).rkv = s.rkv := rfl
@[simp] theorem invalidateSt_dout : (invalidateSt s).dout = s.dout := rfl
@[simp] theorem invalidateSt_ctx : (invalidateSt s).ctx = s.ctx := rfl
@[simp] theorem invalidateSt_nb : (invalidateSt s).nb = s.nb := rfl
@[simp] theorem invalidateSt_nk : (invalidateSt s).nk = s.nk := rfl
@[simp] theorem invalidateSt_nr : (invalidateSt s).nr = s.nr := rfl
@[simp] theorem invalidateSt_err : (invalidateSt s).err = s.err := rfl
@[simp] theorem invalidateSt_ecode : (invalidateSt s).ecode = s.ecode := rfl
@[simp] theorem invalidateSt_eopc : (invalidateSt s).eopc = s.eopc := rfl
@[simp] theorem invalidateSt_cmd : (invalidateSt s).cmd = s.cmd := rfl
@[simp] theorem invalidateSt_din : (invalidateSt s).din = s.din := rfl
@[simp] theorem invalidateSt_pending : (invalidateSt s).pending = s.pending := rfl
@[simp] theorem invalidateSt_freeDraws : (invalidateSt s).freeDraws = s.freeDraws + 1 := rfl

/-! ### invalidateKey -/

@[simp] theorem invalidateKey_st : (invalidateKey s).st = s.st := rfl
@[simp] theorem invalidateKey_stv : (invalidateKey s).stv = s.stv := rfl
@[simp] theorem invalidateKey_key : (invalidateKey s).key = freeWords s.freeDraws 8 := rfl
@[simp] theorem invalidateKey_keyv : (invalidateKey s).keyv = Vector.replicate 8 false := rfl
@[simp] theorem invalidateKey_aux : (invalidateKey s).aux = s.aux := rfl
@[simp] theorem invalidateKey_auxv : (invalidateKey s).auxv = s.auxv := rfl
@[simp] theorem invalidateKey_kt : (invalidateKey s).kt = s.kt := rfl
@[simp] theorem invalidateKey_ktv : (invalidateKey s).ktv = s.ktv := rfl
@[simp] theorem invalidateKey_rk : (invalidateKey s).rk = s.rk := rfl
@[simp] theorem invalidateKey_rkv : (invalidateKey s).rkv = s.rkv := rfl
@[simp] theorem invalidateKey_dout : (invalidateKey s).dout = s.dout := rfl
@[simp] theorem invalidateKey_ctx : (invalidateKey s).ctx = s.ctx := rfl
@[simp] theorem invalidateKey_nb : (invalidateKey s).nb = s.nb := rfl
@[simp] theorem invalidateKey_nk : (invalidateKey s).nk = s.nk := rfl
@[simp] theorem invalidateKey_nr : (invalidateKey s).nr = s.nr := rfl
@[simp] theorem invalidateKey_err : (invalidateKey s).err = s.err := rfl
@[simp] theorem invalidateKey_ecode : (invalidateKey s).ecode = s.ecode := rfl
@[simp] theorem invalidateKey_eopc : (invalidateKey s).eopc = s.eopc := rfl
@[simp] theorem invalidateKey_cmd : (invalidateKey s).cmd = s.cmd := rfl
@[simp] theorem invalidateKey_din : (invalidateKey s).din = s.din := rfl
@[simp] theorem invalidateKey_pending : (invalidateKey s).pending = s.pending := rfl
@[simp] theorem invalidateKey_freeDraws : (invalidateKey s).freeDraws = s.freeDraws + 1 := rfl

/-! ### invalidateAux -/

@[simp] theorem invalidateAux_st : (invalidateAux s).st = s.st := rfl
@[simp] theorem invalidateAux_stv : (invalidateAux s).stv = s.stv := rfl
@[simp] theorem invalidateAux_key : (invalidateAux s).key = s.key := rfl
@[simp] theorem invalidateAux_keyv : (invalidateAux s).keyv = s.keyv := rfl
@[simp] theorem invalidateAux_aux : (invalidateAux s).aux = freeWords s.freeDraws 16 := rfl
@[simp] theorem invalidateAux_auxv : (invalidateAux s).auxv = Vector.replicate 8 false := rfl
@[simp] theorem invalidateAux_kt : (invalidateAux s).kt = s.kt := rfl
@[simp] theorem invalidateAux_ktv : (invalidateAux s).ktv = s.ktv := rfl
@[simp] theorem invalidateAux_rk : (invalidateAux s).rk = s.rk := rfl
@[simp] theorem invalidateAux_rkv : (invalidateAux s).rkv = s.rkv := rfl
@[simp] theorem invalidateAux_dout : (invalidateAux s).dout = s.dout := rfl
@[simp] theorem invalidateAux_ctx : (invalidateAux s).ctx = s.ctx := rfl
@[simp] theorem invalidateAux_nb : (invalidateAux s).nb = s.nb := rfl
@[simp] theorem invalidateAux_nk : (invalidateAux s).nk = s.nk := rfl
@[simp] theorem invalidateAux_nr : (invalidateAux s).nr = s.nr := rfl
@[simp] theorem invalidateAux_err : (invalidateAux s).err = s.err := rfl
@[simp] theorem invalidateAux_ecode : (invalidateAux s).ecode = s.ecode := rfl
@[simp] theorem invalidateAux_eopc : (invalidateAux s).eopc = s.eopc := rfl
@[simp] theorem invalidateAux_cmd : (invalidateAux s).cmd = s.cmd := rfl
@[simp] theorem invalidateAux_din : (invalidateAux s).din = s.din := rfl
@[simp] theorem invalidateAux_pending : (invalidateAux s).pending = s.pending := rfl
@[simp] theorem invalidateAux_freeDraws : (invalidateAux s).freeDraws = s.freeDraws + 1 := rfl

/-! ### invalidateKt -/

@[simp] theorem invalidateKt_st : (invalidateKt s).st = s.st := rfl
@[simp] theorem invalidateKt_stv : (invalidateKt s).stv = s.stv := rfl
@[simp] theorem invalidateKt_key : (invalidateKt s).key = s.key := rfl
@[simp] theorem invalidateKt_keyv : (invalidateKt s).keyv = s.keyv := rfl
@[simp] theorem invalidateKt_aux : (invalidateKt s).aux = s.aux := rfl
@[simp] theorem invalidateKt_auxv : (invalidateKt s).auxv = s.auxv := rfl
@[simp] theorem invalidateKt_kt : (invalidateKt s).kt = freeWords s.freeDraws 24 := rfl
@[simp] theorem invalidateKt_ktv : (invalidateKt s).ktv = false := rfl
@[simp] theorem invalidateKt_rk : (invalidateKt s).rk = s.rk := rfl
@[simp] theorem invalidateKt_rkv : (invalidateKt s).rkv = s.rkv := rfl
@[simp] theorem invalidateKt_dout : (invalidateKt s).dout = s.dout := rfl
@[simp] theorem invalidateKt_ctx : (invalidateKt s).ctx = s.ctx := rfl
@[simp] theorem invalidateKt_nb : (invalidateKt s).nb = s.nb := rfl
@[simp] theorem invalidateKt_nk : (invalidateKt s).nk = s.nk := rfl
@[simp] theorem invalidateKt_nr : (invalidateKt s).nr = s.nr := rfl
@[simp] theorem invalidateKt_err : (invalidateKt s).err = s.err := rfl
@[simp] theorem invalidateKt_ecode : (invalidateKt s).ecode = s.ecode := rfl
@[simp] theorem invalidateKt_eopc : (invalidateKt s).eopc = s.eopc := rfl
@[simp] theorem invalidateKt_cmd : (invalidateKt s).cmd = s.cmd := rfl
@[simp] theorem invalidateKt_din : (invalidateKt s).din = s.din := rfl
@[simp] theorem invalidateKt_pending : (invalidateKt s).pending = s.pending := rfl
@[simp] theorem invalidateKt_freeDraws : (invalidateKt s).freeDraws = s.freeDraws + 1 := rfl

/-! ### invalidateRk -/

@[simp] theorem invalidateRk_st : (invalidateRk s).st = s.st := rfl
@[simp] theorem invalidateRk_stv : (invalidateRk s).stv = s.stv := rfl
@[simp] theorem invalidateRk_key : (invalidateRk s).key = s.key := rfl
@[simp] theorem invalidateRk_keyv : (invalidateRk s).keyv = s.keyv := rfl
@[simp] theorem invalidateRk_aux : (invalidateRk s).aux = s.aux := rfl
@[simp] theorem invalidateRk_auxv : (invalidateRk s).auxv = s.auxv := rfl
@[simp] theorem invalidateRk_kt : (invalidateRk s).kt = s.kt := rfl
@[simp] theorem invalidateRk_ktv : (invalidateRk s).ktv = s.ktv := rfl
@[simp] theorem invalidateRk_rk : (invalidateRk s).rk = freeTable s.freeDraws := rfl
@[simp] theorem invalidateRk_rkv : (invalidateRk s).rkv = Vector.replicate 19 false := rfl
@[simp] theorem invalidateRk_dout : (invalidateRk s).dout = s.dout := rfl
@[simp] theorem invalidateRk_ctx : (invalidateRk s).ctx = s.ctx := rfl
@[simp] theorem invalidateRk_nb : (invalidateRk s).nb = s.nb := rfl
@[simp] theorem invalidateRk_nk : (invalidateRk s).nk = s.nk := rfl
@[simp] theorem invalidateRk_nr : (invalidateRk s).nr = s.nr := rfl
@[simp] theorem invalidateRk_err : (invalidateRk s).err = s.err := rfl
@[simp] theorem invalidateRk_ecode : (invalidateRk s).ecode = s.ecode := rfl
@[simp] theorem invalidateRk_eopc : (invalidateRk s).eopc = s.eopc := rfl
@[simp] theorem invalidateRk_cmd : (invalidateRk s).cmd = s.cmd := rfl
@[simp] theorem invalidateRk_din : (invalidateRk s).din = s.din := rfl
@[simp] theorem invalidateRk_pending : (invalidateRk s).pending = s.pending := rfl
@[simp] theorem invalidateRk_freeDraws : (invalidateRk s).freeDraws = s.freeDraws + 1 := rfl

/-! ### zeroSt -/

@[simp] theorem zeroSt_st (n : Nat) : (zeroSt n s).st = writeBlock s.st (List.replicate n 0#64) := rfl
@[simp] theorem zeroSt_stv (n : Nat) : (zeroSt n s).stv = Vector.ofFn fun i => decide (i.val < n) || s.stv[i] := rfl
@[simp] theorem zeroSt_key (n : Nat) : (zeroSt n s).key = s.key := rfl
@[simp] theorem zeroSt_keyv (n : Nat) : (zeroSt n s).keyv = s.keyv := rfl
@[simp] theorem zeroSt_aux (n : Nat) : (zeroSt n s).aux = s.aux := rfl
@[simp] theorem zeroSt_auxv (n : Nat) : (zeroSt n s).auxv = s.auxv := rfl
@[simp] theorem zeroSt_kt (n : Nat) : (zeroSt n s).kt = s.kt := rfl
@[simp] theorem zeroSt_ktv (n : Nat) : (zeroSt n s).ktv = s.ktv := rfl
@[simp] theorem zeroSt_rk (n : Nat) : (zeroSt n s).rk = s.rk := rfl
@[simp] theorem zeroSt_rkv (n : Nat) : (zeroSt n s).rkv = s.rkv := rfl
@[simp] theorem zeroSt_dout (n : Nat) : (zeroSt n s).dout = s.dout := rfl
@[simp] theorem zeroSt_ctx (n : Nat) : (zeroSt n s).ctx = s.ctx := rfl
@[simp] theorem zeroSt_nb (n : Nat) : (zeroSt n s).nb = s.nb := rfl
@[simp] theorem zeroSt_nk (n : Nat) : (zeroSt n s).nk = s.nk := rfl
@[simp] theorem zeroSt_nr (n : Nat) : (zeroSt n s).nr = s.nr := rfl
@[simp] theorem zeroSt_err (n : Nat) : (zeroSt n s).err = s.err := rfl
@[simp] theorem zeroSt_ecode (n : Nat) : (zeroSt n s).ecode = s.ecode := rfl
@[simp] theorem zeroSt_eopc (n : Nat) : (zeroSt n s).eopc = s.eopc := rfl
@[simp] theorem zeroSt_cmd (n : Nat) : (zeroSt n s).cmd = s.cmd := rfl
@[simp] theorem zeroSt_din (n : Nat) : (zeroSt n s).din = s.din := rfl
@[simp] theorem zeroSt_pending (n : Nat) : (zeroSt n s).pending = s.pending := rfl
@[simp] theorem zeroSt_freeDraws (n : Nat) : (zeroSt n s).freeDraws = s.freeDraws := rfl

/-! ### issueFirst -/

@[simp] theorem issueFirst_st (c : CmdWord) (d : Word) : (issueFirst c d s).st = s.st := rfl
@[simp] theorem issueFirst_stv (c : CmdWord) (d : Word) : (issueFirst c d s).stv = s.stv := rfl
@[simp] theorem issueFirst_key (c : CmdWord) (d : Word) : (issueFirst c d s).key = s.key := rfl
@[simp] theorem issueFirst_keyv (c : CmdWord) (d : Word) : (issueFirst c d s).keyv = s.keyv := rfl
@[simp] theorem issueFirst_aux (c : CmdWord) (d : Word) : (issueFirst c d s).aux = s.aux := rfl
@[simp] theorem issueFirst_auxv (c : CmdWord) (d : Word) : (issueFirst c d s).auxv = s.auxv := rfl
@[simp] theorem issueFirst_kt (c : CmdWord) (d : Word) : (issueFirst c d s).kt = s.kt := rfl
@[simp] theorem issueFirst_ktv (c : CmdWord) (d : Word) : (issueFirst c d s).ktv = s.ktv := rfl
@[simp] theorem issueFirst_rk (c : CmdWord) (d : Word) : (issueFirst c d s).rk = s.rk := rfl
@[simp] theorem issueFirst_rkv (c : CmdWord) (d : Word) : (issueFirst c d s).rkv = s.rkv := rfl
@[simp] theorem issueFirst_dout (c : CmdWord) (d : Word) : (issueFirst c d s).dout = s.dout := rfl
@[simp] theorem issueFirst_ctx (c : CmdWord) (d : Word) : (issueFirst c d s).ctx = s.ctx := rfl
@[simp] theorem issueFirst_nb (c : CmdWord) (d : Word) : (issueFirst c d s).nb = s.nb := rfl
@[simp] theorem issueFirst_nk (c : CmdWord) (d : Word) : (issueFirst c d s).nk = s.nk := rfl
@[simp] theorem issueFirst_nr (c : CmdWord) (d : Word) : (issueFirst c d s).nr = s.nr := rfl
@[simp] theorem issueFirst_err (c : CmdWord) (d : Word) : (issueFirst c d s).err = s.err := rfl
@[simp] theorem issueFirst_ecode (c : CmdWord) (d : Word) : (issueFirst c d s).ecode = s.ecode := rfl
@[simp] theorem issueFirst_eopc (c : CmdWord) (d : Word) : (issueFirst c d s).eopc = s.eopc := rfl
@[simp] theorem issueFirst_cmd (c : CmdWord) (d : Word) : (issueFirst c d s).cmd = s.cmd := rfl
@[simp] theorem issueFirst_din (c : CmdWord) (d : Word) : (issueFirst c d s).din = s.din := rfl
@[simp] theorem issueFirst_pending (c : CmdWord) (d : Word) : (issueFirst c d s).pending = .command c d :: s.pending := rfl
@[simp] theorem issueFirst_freeDraws (c : CmdWord) (d : Word) : (issueFirst c d s).freeDraws = s.freeDraws := rfl

end Sys2Proof.Machine
end

