-- ==== Sys2Proof/Laws/Ops.lean ====
section
/-! SUPPORT. For each shared operation, one lemma that says everything it can answer, and one that says when it goes on;
then the same for the step. -/

namespace Sys2Proof.Machine

/-! ### Checks -/

/-- The ERR gate answers either the state as it was, or what the command behind it answers. -/
theorem unlessError_eq_next (s t : State) (k : Result) :
    unlessError s k = .next t ↔ (s.err = true ∧ t = s) ∨ (s.err = false ∧ k = .next t) := by
  cases h : s.err <;> simp [unlessError, h, eq_comm]

@[simp] theorem unlessError_of_clear {s : State} (k : Result) (h : s.err = false) : unlessError s k = k := by
  simp [unlessError, h]

@[simp] theorem unlessError_of_error {s : State} (k : Result) (h : s.err = true) : unlessError s k = .next s := by
  simp [unlessError, h]

/-- A check answers either the error entry, or what the command behind it answers. -/
theorem require_eq_next (c : Bool) (code : ErrorCode) (s t : State) (k : Result) :
    require c code s k = .next t ↔ (c = false ∧ t = errorEntry code s) ∨ (c = true ∧ k = .next t) := by
  cases c <;> simp [require, raise, eq_comm]

@[simp] theorem require_of_true {c : Bool} (code : ErrorCode) (s : State) (k : Result) (h : c = true) :
    require c code s k = k := by
  simp [require, h]

@[simp] theorem require_of_false {c : Bool} (code : ErrorCode) (s : State) (k : Result) (h : c = false) :
    require c code s k = .next (errorEntry code s) := by
  simp [require, raise, h]

/-- The context check answers either NO_CONTEXT or what the command behind it answers. -/
theorem requireContext_eq_next (s t : State) (k : Result) :
    requireContext s k = .next t ↔ (s.ctx = false ∧ t = errorEntry .noContext s) ∨ (s.ctx = true ∧ k = .next t) :=
  require_eq_next ..

/-- The checks of the state commands answer NO_CONTEXT, UNWRITTEN, or what the command behind them answers. -/
theorem requireState_eq_next (s t : State) (k : Result) :
    requireState s k = .next t ↔
      (s.ctx = false ∧ t = errorEntry .noContext s) ∨
        (s.ctx = true ∧ allValid s.stv s.nb.toNat = false ∧ t = errorEntry .unwritten s) ∨
        (s.ctx = true ∧ allValid s.stv s.nb.toNat = true ∧ k = .next t) := by
  rw [requireState, requireContext_eq_next, require_eq_next]
  tauto

/-! ### Commands on the state -/

/-- A state command answers the state as it was, NO_CONTEXT, UNWRITTEN, or the state with the transformed block. -/
theorem transformState_eq_next (f : Block → Block) (s t : State) :
    transformState f s = .next t ↔
      (s.err = true ∧ t = s) ∨
        (s.err = false ∧
          ((s.ctx = false ∧ t = errorEntry .noContext s) ∨
            (s.ctx = true ∧ allValid s.stv s.nb.toNat = false ∧ t = errorEntry .unwritten s) ∨
            (s.ctx = true ∧ allValid s.stv s.nb.toNat = true ∧ t = writeSt (f s.stBlock) s))) := by
  rw [transformState, unlessError_eq_next, requireState_eq_next]
  simp only [Host.Outcome.next.injEq, eq_comm]

/-- When a state command goes on. -/
theorem transformState_completes (f : Block → Block) {s : State} (he : s.err = false) (hc : s.ctx = true)
    (hv : allValid s.stv s.nb.toNat = true) : transformState f s = .next (writeSt (f s.stBlock) s) := by
  rw [transformState_eq_next]
  exact .inr ⟨he, .inr (.inr ⟨hc, hv, rfl⟩)⟩

/-- A round-key injection answers the state as it was, one of three errors in this order, or the injected state. -/
theorem injectRoundKey_eq_next (op : Block → Block → Block) (r : Nat) (s t : State) :
    injectRoundKey op r s = .next t ↔
      (s.err = true ∧ t = s) ∨
        (s.err = false ∧
          ((s.ctx = false ∧ t = errorEntry .noContext s) ∨
            (s.ctx = true ∧
              ((s.nr.toNat < r ∧ t = errorEntry .indexRange s) ∨
                (r ≤ s.nr.toNat ∧
                  (((allValid s.stv s.nb.toNat = false ∨ flagAt s.rkv r = false) ∧ t = errorEntry .unwritten s) ∨
                    (allValid s.stv s.nb.toNat = true ∧ flagAt s.rkv r = true ∧
                      t = writeSt (op s.stBlock (s.roundKey r)) s))))))) := by
  simp only [injectRoundKey, unlessError_eq_next, requireContext_eq_next, require_eq_next, Host.Outcome.next.injEq,
    decide_eq_true_eq, decide_eq_false_iff_not, Nat.not_le]
  have e : ∀ u : State, (u = t) = (t = u) := fun u => propext eq_comm
  rw [e]
  cases allValid s.stv s.nb.toNat <;> cases flagAt s.rkv r <;> simp

/-- When a round-key injection goes on. -/
theorem injectRoundKey_completes (op : Block → Block → Block) {r : Nat} {s : State} (he : s.err = false)
    (hc : s.ctx = true) (hr : r ≤ s.nr.toNat) (hv : allValid s.stv s.nb.toNat = true) (hk : flagAt s.rkv r = true) :
    injectRoundKey op r s = .next (writeSt (op s.stBlock (s.roundKey r)) s) := by
  simp [injectRoundKey, requireContext, he, hc, hr, hv, hk]

/-- An injection of AUX answers the state as it was, one of two errors, or the injected state. -/
theorem injectAux_eq_next (op : Block → Block → Block) (s t : State) :
    injectAux op s = .next t ↔
      (s.err = true ∧ t = s) ∨
        (s.err = false ∧
          ((s.ctx = false ∧ t = errorEntry .noContext s) ∨
            (s.ctx = true ∧
              (((allValid s.stv s.nb.toNat = false ∨ allValid s.auxv s.nb.toNat = false) ∧
                  t = errorEntry .unwritten s) ∨
                (allValid s.stv s.nb.toNat = true ∧ allValid s.auxv s.nb.toNat = true ∧
                  t = writeSt (op s.stBlock s.auxBlock) s))))) := by
  simp only [injectAux, unlessError_eq_next, requireState_eq_next, require_eq_next, Host.Outcome.next.injEq]
  have e : ∀ u : State, (u = t) = (t = u) := fun u => propext eq_comm
  rw [e]
  cases allValid s.stv s.nb.toNat <;> cases allValid s.auxv s.nb.toNat <;> simp

/-- When an injection of AUX goes on. -/
theorem injectAux_completes (op : Block → Block → Block) {s : State} (he : s.err = false) (hc : s.ctx = true)
    (hv : allValid s.stv s.nb.toNat = true) (ha : allValid s.auxv s.nb.toNat = true) :
    injectAux op s = .next (writeSt (op s.stBlock s.auxBlock) s) := by
  simp [injectAux, requireState, requireContext, he, hc, hv, ha]

/-- A block command answers the state as it was, one of two errors, or the state with the transformed block. -/
theorem transformBlock_eq_next (f : (Nat → Block) → Nat → Block → Block) (s t : State) :
    transformBlock f s = .next t ↔
      (s.err = true ∧ t = s) ∨
        (s.err = false ∧
          ((s.ctx = false ∧ t = errorEntry .noContext s) ∨
            (s.ctx = true ∧
              (((allValid s.stv s.nb.toNat = false ∨ s.rkComplete = false) ∧ t = errorEntry .unwritten s) ∨
                (allValid s.stv s.nb.toNat = true ∧ s.rkComplete = true ∧
                  t = writeSt (f s.roundKey s.nr.toNat s.stBlock) s))))) := by
  simp only [transformBlock, unlessError_eq_next, requireState_eq_next, require_eq_next, Host.Outcome.next.injEq]
  have e : ∀ u : State, (u = t) = (t = u) := fun u => propext eq_comm
  rw [e]
  cases allValid s.stv s.nb.toNat <;> cases s.rkComplete <;> simp

/-- When a block command goes on. -/
theorem transformBlock_completes (f : (Nat → Block) → Nat → Block → Block) {s : State} (he : s.err = false)
    (hc : s.ctx = true) (hv : allValid s.stv s.nb.toNat = true) (hk : s.rkComplete = true) :
    transformBlock f s = .next (writeSt (f s.roundKey s.nr.toNat s.stBlock) s) := by
  simp [transformBlock, requireState, requireContext, he, hc, hv, hk]

/-! ### Round-key writes -/

/-- Writing round keys changes RK and RKV alone. -/
theorem writeRks_frame (keys : List (Nat × Block)) (s : State) :
    writeRks keys s = { s with rk := (writeRks keys s).rk, rkv := (writeRks keys s).rkv } := by
  induction keys generalizing s with
  | nil => rfl
  | cons e es ih => exact (ih (writeRk e.1 e.2 s)).trans rfl

/-- A flag of RKV after round keys are written: an entry written is valid, every other one is as it was. -/
theorem flagAt_writeRks (keys : List (Nat × Block)) (s : State) (r : Nat) (hr : r < 19) :
    flagAt (writeRks keys s).rkv r = (decide (r ∈ keys.map Prod.fst) || flagAt s.rkv r) := by
  induction keys generalizing s with
  | nil => simp [writeRks]
  | cons e es ih =>
    have h : writeRks (e :: es) s = writeRks es (writeRk e.1 e.2 s) := rfl
    rw [h, ih, writeRk_rkv, flagAt_setIfInBounds]
    by_cases hre : r = e.1
    · subst hre; simp [hr]
    · have hm : (r ∈ (e :: es).map Prod.fst) ↔ r ∈ es.map Prod.fst := by
        rw [List.map_cons, List.mem_cons, or_iff_right hre]
      rw [if_neg (fun hc => hre hc.1), decide_eq_decide.mpr hm]

/-- Entry `r` after one round key is written. -/
theorem rkEntry_writeRk (r r' : Nat) (b : Block) (s : State) (h : r' < 19) :
    (writeRk r b s).rkEntry r' = if r' = r then writeBlock (s.rkEntry r) b else s.rkEntry r' := by
  by_cases hr : r' = r
  · subst hr; simp [State.rkEntry, writeRk, h]
  · simp [State.rkEntry, writeRk, h, hr, Ne.symm hr]

/-- An entry that no key of the list is for stays as it was. -/
theorem rkEntry_writeRks_of_not_mem (keys : List (Nat × Block)) (s : State) (r : Nat)
    (h : r ∉ keys.map Prod.fst) : (writeRks keys s).rkEntry r = s.rkEntry r := by
  induction keys generalizing s with
  | nil => rfl
  | cons e es ih =>
    simp only [List.map_cons, List.mem_cons, not_or] at h
    have h' : writeRks (e :: es) s = writeRks es (writeRk e.1 e.2 s) := rfl
    rw [h', ih _ h.2]
    rcases Nat.lt_or_ge r 19 with hr | hr
    · rw [rkEntry_writeRk _ _ _ _ hr, if_neg h.1]
    · simp [State.rkEntry, Nat.not_lt.mpr hr]

/-! ### The step -/

/-- Everything a step can do: wait, reset, execute a command, or reject an illegal word. -/
theorem step_cases (s : State) :
    (s.pending = [] ∧ step s = .next s) ∨
      (∃ rest, s.pending = .reset :: rest ∧ step s = .next (resetCore { s with pending := rest })) ∨
      (∃ c d rest i, s.pending = .command c d :: rest ∧ decode c = .ok i ∧
        step s = exec i { s with cmd := c, din := d, pending := rest }) ∨
      (∃ c d rest e, s.pending = .command c d :: rest ∧ decode c = .error e ∧
        step s = illegalCommand { s with cmd := c, din := d, pending := rest }) := by
  rcases h : s.pending with _ | ⟨_ | _, rest⟩
  · exact .inl ⟨rfl, by simp [step, transact, takeEvent, h]⟩
  · rename_i c d
    rcases hd : decode c with e | i
    · exact .inr (.inr (.inr ⟨c, d, rest, e, rfl, hd, by simp [step, transact, takeEvent, h, executePort, hd]⟩))
    · exact .inr (.inr (.inl ⟨c, d, rest, i, rfl, hd, by simp [step, transact, takeEvent, h, executePort, hd]⟩))
  · exact .inr (.inl ⟨rest, rfl, by simp [step, transact, takeEvent, h]⟩)

end Sys2Proof.Machine
end

