-- ==== Sys2Proof/Tests/Slice0.lean ====
section
/-! SUPPORT. The tests of this slice: ill-formed commands, one word per command written out from its encoding, illegal
words, one-step runs with results from the spec's examples, and a witness for the hypotheses of every obligation. -/

-- Tests that the kernel evaluates are checked one after the other: at once they ask for too much memory.
set_option Elab.async false

namespace Sys2Proof.Machine

/-! ### Ill-formed commands (R201: W is 0..7, R is 0..31) -/

theorem test_ldst_word_8_is_ill_formed : (Instr.ldst 8).WellFormed = false := by decide
theorem test_ldkey_word_8_is_ill_formed : (Instr.ldkey 8).WellFormed = false := by decide
theorem test_ldaux_word_8_is_ill_formed : (Instr.ldaux 8).WellFormed = false := by decide
theorem test_rdst_word_8_is_ill_formed : (Instr.rdst 8).WellFormed = false := by decide
theorem test_rdkt_word_8_is_ill_formed : (Instr.rdkt 8).WellFormed = false := by decide
theorem test_rdrk_word_8_is_ill_formed : (Instr.rdrk 31 8).WellFormed = false := by decide
theorem test_rdrk_round_32_is_ill_formed : (Instr.rdrk 32 7).WellFormed = false := by decide
theorem test_addrk_round_32_is_ill_formed : (Instr.addrk 32).WellFormed = false := by decide
theorem test_subrk_round_32_is_ill_formed : (Instr.subrk 32).WellFormed = false := by decide
theorem test_xorrk_round_32_is_ill_formed : (Instr.xorrk 32).WellFormed = false := by decide
theorem test_boundary_indices_are_well_formed :
    (Instr.rdrk 31 7).WellFormed = true ∧ (Instr.ldkey 7).WellFormed = true ∧
      (Instr.addrk 31).WellFormed = true := by decide

/-! ### One word per command (R202, R205; the layouts are written out bit by bit) -/

theorem test_decode_nop : decode 0b00000000000000000000000000000000#32 = .ok .nop := by decide
theorem test_decode_create : decode 0b00000001000010010000000000000000#32 = .ok (.create .bits512 .bits256) := by decide
theorem test_decode_create_reserved :
    decode 0b00000001000011000000000000000000#32 = .ok (.create .reserved .bits128) := by decide
theorem test_decode_destroy : decode 0b00000010000000000000000000000000#32 = .ok .destroy := by decide
theorem test_decode_clrerr : decode 0b00000011000000000000000000000000#32 = .ok .clrerr := by decide
theorem test_decode_rdstat : decode 0b00000100000000000000000000000000#32 = .ok .rdstat := by decide
theorem test_decode_ldst : decode 0b00010000000000000000000000000001#32 = .ok (.ldst 1) := by decide
theorem test_decode_ldkey : decode 0b00010001000000000000000000000111#32 = .ok (.ldkey 7) := by decide
theorem test_decode_ldaux : decode 0b00010010000000000000000000000011#32 = .ok (.ldaux 3) := by decide
theorem test_decode_rdst : decode 0b00011000000000000000000000000110#32 = .ok (.rdst 6) := by decide
theorem test_decode_rdrk : decode 0b00011001000000000000101000000001#32 = .ok (.rdrk 10 1) := by decide
theorem test_decode_rdrk_last : decode 0b00011001000000000001111100000111#32 = .ok (.rdrk 31 7) := by decide
theorem test_decode_rdkt : decode 0b00011010000000000000000000000100#32 = .ok (.rdkt 4) := by decide
theorem test_decode_gfmul : decode 0b00100000000000000101011110000011#32 = .ok (.gfmul 0x57#8 0x83#8) := by decide
theorem test_decode_sbox : decode 0b00100001000000000000000000000010#32 = .ok (.sbox 2) := by decide
theorem test_decode_isbox : decode 0b00100010000000000000000000000011#32 = .ok (.isbox 3) := by decide
theorem test_decode_subb : decode 0b00110000000000000000000000000000#32 = .ok .subb := by decide
theorem test_decode_isubb : decode 0b00110001000000000000000000000000#32 = .ok .isubb := by decide
theorem test_decode_shrow : decode 0b00110010000000000000000000000000#32 = .ok .shrow := by decide
theorem test_decode_ishrow : decode 0b00110011000000000000000000000000#32 = .ok .ishrow := by decide
theorem test_decode_mixcol : decode 0b00110100000000000000000000000000#32 = .ok .mixcol := by decide
theorem test_decode_imixcol : decode 0b00110101000000000000000000000000#32 = .ok .imixcol := by decide
theorem test_decode_eround : decode 0b00111000000000000000000000000000#32 = .ok .eround := by decide
theorem test_decode_dround : decode 0b00111001000000000000000000000000#32 = .ok .dround := by decide
theorem test_decode_addrk : decode 0b01000000000000000000000100000000#32 = .ok (.addrk 1) := by decide
theorem test_decode_subrk : decode 0b01000001000000000001001000000000#32 = .ok (.subrk 18) := by decide
theorem test_decode_xorrk : decode 0b01000010000000000001111100000000#32 = .ok (.xorrk 31) := by decide
theorem test_decode_addx : decode 0b01000011000000000000000000000000#32 = .ok .addx := by decide
theorem test_decode_xorx : decode 0b01000100000000000000000000000000#32 = .ok .xorx := by decide
theorem test_decode_ktgen : decode 0b01010000000000000000000000000000#32 = .ok .ktgen := by decide
theorem test_decode_evenkeys : decode 0b01010001000000000000000000000000#32 = .ok .evenkeys := by decide
theorem test_decode_oddkeys : decode 0b01010010000000000000000000000000#32 = .ok .oddkeys := by decide
theorem test_decode_expand : decode 0b01010011000000000000000000000000#32 = .ok .expand := by decide
theorem test_decode_enc : decode 0b01100000000000000000000000000000#32 = .ok .enc := by decide
theorem test_decode_dec : decode 0b01100001000000000000000000000000#32 = .ok .dec := by decide

/-! ### Illegal words (R203; the words are those of spec/95_test_vectors.md T-ER) -/

theorem test_illegal_opc_05 : decode 0x05000000#32 = .error (.unassignedOpcode 0x05#8) := by decide
theorem test_illegal_opc_FF : decode 0xFF000000#32 = .error (.unassignedOpcode 0xFF#8) := by decide
theorem test_illegal_nop_bit_0 : decode 0x00000001#32 = .error (.reservedBit 0x00#8) := by decide
theorem test_illegal_create_bit_0 : decode 0x01000001#32 = .error (.reservedBit 0x01#8) := by decide
theorem test_illegal_create_bit_20 : decode 0x01100000#32 = .error (.reservedBit 0x01#8) := by decide
theorem test_illegal_ldst_bit_3 : decode 0x10000009#32 = .error (.reservedBit 0x10#8) := by decide
theorem test_illegal_rdrk_bit_13 : decode 0x19002000#32 = .error (.reservedBit 0x19#8) := by decide
theorem test_illegal_rdrk_bit_3 : decode 0x19000008#32 = .error (.reservedBit 0x19#8) := by decide
theorem test_illegal_gfmul_bit_16 : decode 0x20010000#32 = .error (.reservedBit 0x20#8) := by decide
theorem test_illegal_sbox_bit_2 : decode 0x21000004#32 = .error (.reservedBit 0x21#8) := by decide
theorem test_illegal_addrk_bit_13 : decode 0x40002000#32 = .error (.reservedBit 0x40#8) := by decide
theorem test_illegal_addrk_bit_0 : decode 0x40000001#32 = .error (.reservedBit 0x40#8) := by decide

/-- R204: exactly 33 opcodes are assigned; the other 223 are illegal. -/
theorem test_223_opcodes_are_unassigned :
    ((List.range 256).filter fun opc => (opcodeRow opc 0#32).isNone).length = 223 := by decide +kernel

theorem test_table_word_is_decoded : decodeTableWord 32 0x19000A01 = some (.rdrk 10 1) := by decide

theorem test_encoder_writes_the_printed_word : encode (.rdrk 10 1) = 0x19000A01#32 := by decide

/-! ### One step
The results come from the examples of the rules and from the tables of spec/95_test_vectors.md. -/

/-- The state that an answer holds. -/
def after : Result → State
  | .next t => t
  | .fault _ => State.reset
  | .refused _ => State.reset

/-- The state after the host issues one command. -/
def run (c : CmdWord) (d : Word) (s : State) : State := after (step { s with pending := [.command c d] })

/-- Word `i` of `words(bytes 0x00, 0x01, ...)`. -/
def ramp (i : Nat) : Word := 0x0706050403020100#64 + BitVec.ofNat 64 i * 0x0808080808080808#64

/-- A state with everything loaded under the given parameters: ST, KEY and AUX hold `ramp`, and so does every round
key. -/
def loaded (nb nk : BitVec 4) (nr : BitVec 5) : State :=
  { State.reset with
    st := Vector.ofFn fun i => ramp i.val
    stv := Vector.ofFn fun i => decide (i.val < nb.toNat)
    key := Vector.ofFn fun i => ramp i.val
    keyv := Vector.ofFn fun i => decide (i.val < nk.toNat)
    aux := Vector.ofFn fun i => ramp i.val
    auxv := Vector.ofFn fun i => decide (i.val < nb.toNat)
    ktv := true
    rk := Vector.replicate 19 (Vector.ofFn fun i => ramp i.val)
    rkv := Vector.ofFn fun r => decide (r.val ≤ nr.toNat)
    ctx := true, nb := nb, nk := nk, nr := nr }

/-- Parameters (128,128). -/
def small : State := loaded 2#4 2#4 10#5

/-- Parameters (512,512). -/
def large : State := loaded 8#4 8#4 18#5

/-- A context (128,128) as CREATE leaves it. -/
def created : State := run 0x01000000#32 0#64 State.reset

/-- `small` with the words of `st` and round key `r` replaced. -/
def withBlocks (st : Block) (r : Nat) (key : Block) : State := writeRk r key (writeSt st small)

/-! #### Control and status -/

theorem test_nop_runs_in_the_error_state :
    (run 0x00000000#32 0#64 (run 0x05000000#32 0#64 State.reset)).status = 0x0005000000000064#64 := by decide +kernel

theorem test_create_b256_k512 : (run 0x01090000#32 0#64 State.reset).status = 0x000000000F128401#64 := by
  decide +kernel

theorem test_failing_create_keeps_the_context :
    (run 0x01020000#32 0#64 (run 0x01090000#32 0#64 State.reset)).status = 0x000100000F128415#64 := by decide +kernel

theorem test_destroy : (run 0x02000000#32 0#64 large).status = 0#64 := by decide +kernel

theorem test_destroy_needs_a_context : (run 0x02000000#32 0#64 State.reset).status = 0x0002000000000034#64 := by
  decide +kernel

theorem test_clrerr_leaves_the_error_state :
    (run 0x03000000#32 0#64 (run 0x10000002#32 1#64 created)).status = 0x00000000030A2201#64 := by decide +kernel

theorem test_rdstat_reads_an_error :
    (run 0x04000000#32 0#64 (run 0x10000000#32 1#64 State.reset)).dout = 0x0010000000000034#64 := by decide +kernel

/-- R154: an illegal word and a CREATE are ignored while ERR = 1. -/
theorem test_first_error_is_kept :
    (run 0x01000000#32 0#64 (run 0x05000000#32 0#64 (run 0x10000000#32 1#64 State.reset))).status
      = 0x0010000000000034#64 := by decide +kernel

theorem test_reset_clears_the_status :
    (after (step { large with pending := [.reset] })).status = 0#64 := by decide +kernel

/-! #### Data port -/

theorem test_ldst : wordAt (run 0x10000001#32 0x1F1E1D1C1B1A1918#64 created).st 1 = 0x1F1E1D1C1B1A1918#64 := by
  decide +kernel

theorem test_ldst_index_range : (run 0x10000002#32 1#64 created).status = 0x00100000030A2245#64 := by decide +kernel

theorem test_ldkey_invalidates_kt_and_keeps_keyed :
    (run 0x11000001#32 0#64 small).status &&& 0xFF00FF#64 = 0x0A0003#64 := by decide +kernel

theorem test_ldkey_index_range : (run 0x11000002#32 1#64 created).status = 0x00110000030A2245#64 := by decide +kernel

theorem test_ldaux :
    (run 0x12000003#32 1#64 (run 0x010A0000#32 0#64 State.reset)).status = 0x00000800FF128801#64 := by decide +kernel

theorem test_rdst : (run 0x18000001#32 0#64 small).dout = 0x0F0E0D0C0B0A0908#64 := by decide +kernel

theorem test_rdst_index_range : (run 0x18000007#32 0#64 created).status = 0x00180000030A2245#64 := by decide +kernel

theorem test_rdrk :
    (run 0x19000A01#32 0#64 (withBlocks [] 10 [0x18C4DB94A8B12657#64, 0x6148D7E8D5F30BF6#64])).dout
      = 0x6148D7E8D5F30BF6#64 := by decide +kernel

/-- T-ER: INDEX_RANGE beats UNWRITTEN. -/
theorem test_rdrk_priority : (run 0x19000C05#32 0#64 created).ecode = 4#4 := by decide +kernel

theorem test_rdkt :
    (run 0x1A000001#32 0#64 (writeKt [0xA15B773B651F2F86#64, 0x7DD8E2382FBC5CD0#64] small)).dout
      = 0x7DD8E2382FBC5CD0#64 := by decide +kernel

theorem test_rdkt_unwritten : (run 0x1A000000#32 0#64 created).status = 0x001A0000030A2255#64 := by decide +kernel

/-! #### Byte units -/

theorem test_gfmul : (run 0x20005783#32 0#64 State.reset).dout = 0x31#64 := by decide +kernel

theorem test_gfmul_reduces : (run 0x20008002#32 0#64 State.reset).dout = 0x1D#64 := by decide +kernel

theorem test_sbox_ignores_the_high_bits_of_din :
    (run 0x21000000#32 0x1234567890ABCD4A#64 State.reset).dout = 0xAB#64 := by decide +kernel

theorem test_sbox_table_3 : (run 0x21000003#32 0x01#64 State.reset).dout = 0x8D#64 := by decide +kernel

theorem test_isbox_table_0 : (run 0x22000000#32 0xFF#64 State.reset).dout = 0x8F#64 := by decide +kernel

theorem test_isbox_table_3 : (run 0x22000003#32 0x00#64 State.reset).dout = 0xB2#64 := by decide +kernel

/-! #### State commands (T-ST) -/

theorem test_subb :
    (run 0x30000000#32 0#64 small).stBlock
      = [0x2A45CB6B4D9ABBA8#64, 0x1F519017B3DF3A71#64] := by decide +kernel

theorem test_isubb :
    (run 0x31000000#32 0#64 small).stBlock
      = [0xA6EDBF4E110BF2A4#64, 0xC33A69E7E8E6967E#64] := by decide +kernel

/-- The state of the examples of R82 and R83. -/
def rowsExample : Block :=
  [0x0706050403020100#64, 0x1716151413121110#64, 0x2726252423222120#64, 0x3736353433323130#64]

theorem test_shrow :
    (run 0x32000000#32 0#64 (writeSt rowsExample (loaded 4#4 4#4 14#5))).stBlock
      = [0x1716252433320100#64, 0x2726353403021110#64, 0x3736050413122120#64, 0x0706151423223130#64] := by
  decide +kernel

theorem test_ishrow :
    (run 0x33000000#32 0#64 (writeSt rowsExample (loaded 4#4 4#4 14#5))).stBlock
      = [0x3736252413120100#64, 0x0706353423221110#64, 0x1716050433322120#64, 0x2726151403023130#64] := by
  decide +kernel

theorem test_mixcol :
    (run 0x34000000#32 0#64 (writeSt [0x0706050403020100#64, 0x0000000000000001#64] small)).stBlock
      = [0x0312051C27362138#64, 0x0105010806070401#64] := by
  decide +kernel

theorem test_imixcol :
    (run 0x35000000#32 0#64 (writeSt [0x0312051C27362138#64, 0x0105010806070401#64] small)).stBlock
      = [0x0706050403020100#64, 0x0000000000000001#64] := by
  decide +kernel

theorem test_eround :
    (run 0x38000000#32 0#64 small).stBlock
      = [0xEECF62CC9A559ABF#64, 0x82C1C724D63151ED#64] := by
  decide +kernel

theorem test_dround :
    (run 0x39000000#32 0#64 small).stBlock
      = [0x58E65C03042344C6#64, 0x13BD4326DFEFF861#64] := by
  decide +kernel

/-! #### Key injection (T-KI) -/

theorem test_addrk_wraps_in_each_word :
    (run 0x40000000#32 0#64 (withBlocks [0xFFFFFFFFFFFFFFFF#64, 0x0000000000000001#64] 0
      [0x0000000000000001#64, 0xFFFFFFFFFFFFFFFF#64])).stBlock
      = [0x0000000000000000#64, 0x0000000000000000#64] := by decide +kernel

theorem test_subrk_wraps_in_each_word :
    (run 0x41000000#32 0#64 (withBlocks [0x0000000000000000#64, 0x0000000000000000#64] 0
      [0x0000000000000001#64, 0xFFFFFFFFFFFFFFFF#64])).stBlock
      = [0xFFFFFFFFFFFFFFFF#64, 0x0000000000000001#64] := by decide +kernel

theorem test_xorrk :
    (run 0x42000300#32 0#64 (withBlocks [0x0123456789ABCDEF#64, 0xFFFFFFFFFFFFFFFF#64] 3
      [0xFFFFFFFFFFFFFFFF#64, 0x0F0F0F0F0F0F0F0F#64])).stBlock
      = [0xFEDCBA9876543210#64, 0xF0F0F0F0F0F0F0F0#64] := by decide +kernel

theorem test_xorrk_index_range : (run 0x42000B00#32 0#64 created).status = 0x00420000030A2245#64 := by decide +kernel

theorem test_addx :
    (run 0x43000000#32 0#64 (writeSt [5#64, 0#64] small)).stBlock
      = [0x0706050403020105#64, 0x0F0E0D0C0B0A0908#64] := by
  decide +kernel

theorem test_xorx :
    (run 0x44000000#32 0#64 (writeSt [0x0706050403020105#64, 0x0F0E0D0C0B0A0908#64] small)).stBlock
      = [0x0000000000000005#64, 0x0000000000000000#64] := by
  decide +kernel

theorem test_addx_unwritten : (run 0x43000000#32 0#64 created).status = 0x00430000030A2255#64 := by decide +kernel

/-! #### Key schedule (T-KS, set (128,128); the key is `ramp`) -/

theorem test_ktgen :
    (run 0x50000000#32 0#64 small).ktBlock
      = [0xA15B773B651F2F86#64, 0x7DD8E2382FBC5CD0#64] := by
  decide +kernel

theorem test_ktgen_loses_the_state : (run 0x50000000#32 0#64 small).stv = Vector.replicate 8 false := by
  decide +kernel

theorem test_evenkeys :
    (run 0x51000000#32 0#64 (writeKt [0xA15B773B651F2F86#64, 0x7DD8E2382FBC5CD0#64] small)).roundKey 10
      = [0x18C4DB94A8B12657#64, 0x6148D7E8D5F30BF6#64] := by
  decide +kernel

/-- KEYED is 0 after EVENKEYS, for the odd keys are lost (R135). -/
theorem test_evenkeys_clears_keyed : (run 0x51000000#32 0#64 small).keyed = false := by decide +kernel

theorem test_oddkeys :
    (run 0x52000000#32 0#64 (withBlocks [] 0 [0xE6B13A9B6B5E5016#64, 0xF4A082E0DC775B86#64])).roundKey 1
      = [0xA082E0DC775B86E6#64, 0xB13A9B6B5E5016F4#64] := by
  decide +kernel

theorem test_oddkeys_unwritten : (run 0x52000000#32 0#64 created).status = 0x00520000030A2255#64 := by decide +kernel

theorem test_expand :
    (run 0x53000000#32 0#64 small).roundKey 9
      = [0x6DA686209A87AAB8#64, 0xB0D25CE272980AD8#64] := by
  decide +kernel

/-! #### Block transform (V1; the round keys are those of T-KS) -/

/-- The round-key table of V1. -/
def tableV1 : List (Nat × Block) :=
  [(0, [0xE6B13A9B6B5E5016#64, 0xF4A082E0DC775B86#64]),
    (1, [0xA082E0DC775B86E6#64, 0xB13A9B6B5E5016F4#64]),
    (2, [0x768449AE6E87707E#64, 0x42EC937C0AA0AA8A#64]),
    (3, [0xEC937C0AA0AA8A76#64, 0x8449AE6E87707E42#64]),
    (4, [0xF540911EC5D4CE45#64, 0xFED90B0F8276723E#64]),
    (5, [0xD90B0F8276723EF5#64, 0x40911EC5D4CE45FE#64]),
    (6, [0x62C4007922EE778C#64, 0xB1C4600532665F51#64]),
    (7, [0xC4600532665F5162#64, 0xC4007922EE778CB1#64]),
    (8, [0xB8B0D25CE272980A#64, 0xD86DA686209A87AA#64]),
    (9, [0x6DA686209A87AAB8#64, 0xB0D25CE272980AD8#64]),
    (10, [0x18C4DB94A8B12657#64, 0x6148D7E8D5F30BF6#64])]

theorem test_enc :
    (run 0x60000000#32 0#64 (writeSt [0x1716151413121110#64, 0x1F1E1D1C1B1A1918#64] (writeRks tableV1 small))).stBlock
      = [0x20AC9B777D1CBF81#64, 0x06ADD2B439EAC9E1#64] := by
  decide +kernel

theorem test_dec :
    (run 0x61000000#32 0#64 (writeSt [0x20AC9B777D1CBF81#64, 0x06ADD2B439EAC9E1#64] (writeRks tableV1 small))).stBlock
      = [0x1716151413121110#64, 0x1F1E1D1C1B1A1918#64] := by
  decide +kernel

theorem test_enc_unwritten : (run 0x60000000#32 0#64 created).status = 0x00600000030A2255#64 := by decide +kernel

/-! #### Assembler -/

theorem test_rdrk_line : lineText (.rdrk 10 1) 0#64 = some "RDRK 10, 1" := by decide +kernel

theorem test_encblk_is_load_run_read :
    expandPseudo 2 (.encblk [1#64, 2#64])
      = [.command 0x10000000#32 1#64, .command 0x10000001#32 2#64, .command 0x60000000#32 0#64,
          .command 0x18000000#32 0#64, .command 0x18000001#32 0#64] := by decide +kernel

theorem test_fetch_word_is_the_next_command :
    (after (step (State.reset.withFetchWord 32 0x20005783))).dout = 0x31#64 := by decide +kernel

/-! ### Witnesses
For each obligation with hypotheses, a state and operands that meet all of them; the obligations without are not
listed. -/

/-- An answer with a next state. -/
def goesOn : Result → Bool
  | .next _ => true
  | .fault _ => false
  | .refused _ => false

theorem eq_next_of_goesOn {r : Result} (h : goesOn r = true) : r = .next (after r) := by
  cases r <;> first | rfl | cases h

theorem witness_DecodeOfEncodeIsTheCommand : (Instr.rdrk 31 7).WellFormed = true := by decide

theorem witness_DecodedCommandHasOneWord : decode 0x19001F07#32 = .ok (.rdrk 31 7) := by decide

/-- `s` with one command pending. -/
abbrev State.issued (s : State) (c : CmdWord) : State := { s with pending := [.command c 0#64] }

theorem witness_DecodingFollowsTheOpcodeMap :
    decode 0x19001F07#32 = .ok (.rdrk 31 7) ∧ (∃ row ∈ opcodeMap, row.Matches 0x19001F07#32) ∧
      (State.reset.issued 0x05000000#32).pending = .command 0x05000000#32 0#64 :: [] ∧
      (State.reset.issued 0x05000000#32).err = false ∧ (∀ row ∈ opcodeMap, ¬ row.Matches 0x05000000#32) ∧
      ∀ row ∈ opcodeMap, ¬ row.Matches 0x00000001#32 := by decide +kernel

theorem witness_StepRunsTheDecodedCommand :
    (small.issued 0x60000000#32).pending = .command 0x60000000#32 0#64 :: [] ∧ decode 0x60000000#32 = .ok .enc := by
  decide

theorem witness_StepWithNothingPendingWaits : small.pending = [] := rfl

theorem witness_ResetEventClearsFlagsFieldsAndValidBits :
    ({ small with pending := [.reset, .command 0#32 0#64] } : State).pending = .reset :: [.command 0#32 0#64] := rfl

/-- One state and word for each clause; the second clause for each of the four errors of a decoded command. -/
theorem witness_ExecutionSequenceAndPriority :
    (decode 0x00000001#32 = .error (.reservedBit 0#8) ∧ State.reset.err = false) ∧
      (decode 0x05000000#32 = .error (.unassignedOpcode 5#8) ∧ (State.reset.faulted .noContext).err = true) ∧
      (runsInErrorState .enc = false ∧ decode 0x60000000#32 = .ok .enc) ∧
      errorOf (.create .bits128 .bits512) (State.reset.withPort 0x01020000#32 0#64 []) = some .invalidParams ∧
      errorOf .enc (State.reset.withPort 0x60000000#32 0#64 []) = some .noContext ∧
      errorOf (.rdrk 11 8) (small.withPort 0x19000B00#32 0#64 []) = some .indexRange ∧
      errorOf .enc (created.withPort 0x60000000#32 0#64 []) = some .unwritten ∧
      executes .enc (small.withPort 0x60000000#32 0#64 []) = true ∧
      executes .rdstat ((small.faulted .noContext).withPort 0x04000000#32 0#64 []) = true := by decide +kernel

theorem witness_ErrorEntryWritesOnlyTheErrorFields :
    exec .ktgen created = .next (after (exec .ktgen created)) ∧ created.err = false ∧
      (after (exec .ktgen created)).err = true :=
  ⟨eq_next_of_goesOn (by decide +kernel), by decide +kernel, by decide +kernel⟩

/-- The first clause for a legal word and for an illegal one; the second for each outcome. -/
theorem witness_ErrorStateKeepsTheFirstError :
    (small.faulted .unwritten).err = true ∧ decode 0x60000000#32 = .ok .enc ∧
      decode 0x05000000#32 = .error (.unassignedOpcode 5#8) ∧
      exec .enc (small.faulted .unwritten) = .next (after (exec .enc (small.faulted .unwritten))) ∧
      exec .clrerr (small.faulted .unwritten) = .next (after (exec .clrerr (small.faulted .unwritten))) :=
  ⟨rfl, by decide, by decide, eq_next_of_goesOn (by decide +kernel), eq_next_of_goesOn (by decide +kernel)⟩

/-- `small` in the error state, with a reset pending. -/
def smallInError : State := { small.faulted .unwritten with pending := [.reset] }

theorem witness_OnlyClrerrAndResetLeaveTheErrorState :
    (smallInError.err = true ∧ step smallInError = .next (after (step smallInError)) ∧
        (after (step smallInError)).err = false) ∧
      (step (smallInError.issued 0x03000000#32) = .next (after (step (smallInError.issued 0x03000000#32))) ∧
        (after (step (smallInError.issued 0x03000000#32))).err = false) :=
  ⟨⟨rfl, eq_next_of_goesOn (by decide +kernel), by decide +kernel⟩, eq_next_of_goesOn (by decide +kernel),
    by decide +kernel⟩

theorem small_inv : small.Inv := by decide +kernel

theorem large_inv : large.Inv := by decide +kernel

theorem witness_EveryStepKeepsTheInvariant :
    (small.issued 0x60000000#32).Inv ∧
      step (small.issued 0x60000000#32) = .next (after (step (small.issued 0x60000000#32))) :=
  ⟨small_inv, eq_next_of_goesOn (by decide +kernel)⟩

/-- `small` after EXPAND, with a valid Kt and all round keys valid, and with ODDKEYS pending. -/
def scheduled : State := (run 0x53000000#32 0#64 small).issued 0x52000000#32

theorem witness_EveryStepKeepsKtWithItsKey :
    scheduled.Inv ∧ scheduled.ktv = true ∧ scheduled.KtBelongsToKey ∧
      step scheduled = .next (after (step scheduled)) := by
  refine ⟨by decide +kernel, by decide +kernel, ?_, eq_next_of_goesOn (by decide +kernel)⟩
  unfold State.KtBelongsToKey
  decide +kernel

theorem witness_EveryStepKeepsOddKeysWithTheirEvenKeys :
    scheduled.Inv ∧ flagAt scheduled.rkv 9 = true ∧ scheduled.OddKeysBelongToEvenKeys ∧
      step scheduled = .next (after (step scheduled)) := by
  refine ⟨by decide +kernel, by decide +kernel, ?_, eq_next_of_goesOn (by decide +kernel)⟩
  intro m h
  have hm : m < 9 := by
    rcases Nat.lt_or_ge m 9 with hm | hm
    · exact hm
    · rw [flagAt_of_ge _ (by omega)] at h
      cases h
  have all : ∀ m < 9, flagAt scheduled.rkv (2 * m + 1) = true →
      flagAt scheduled.rkv (2 * m) = true ∧
        scheduled.roundKey (2 * m + 1) = oddKey scheduled.nb.toNat (scheduled.roundKey (2 * m)) := by
    decide +kernel
  exact all m hm h

/-- `small` with KEY invalid and `k` in its storage, and LDKEY 0 pending. -/
def unkeyed (k : Word) : State :=
  { small with
    key := Vector.replicate 8 k
    keyv := Vector.replicate 8 false
    ktv := false
    pending := [.command 0x11000000#32 5#64] }

theorem witness_UnspecifiedContentsCannotBeObserved :
    (unkeyed 0#64).Inv ∧ (unkeyed 0#64).Agree (unkeyed 1#64) ∧ unkeyed 0#64 ≠ unkeyed 1#64 ∧
      step (unkeyed 0#64) = .next (after (step (unkeyed 0#64))) := by
  refine ⟨by decide +kernel, ?_, by decide +kernel, eq_next_of_goesOn (by decide +kernel)⟩
  refine ⟨⟨rfl, rfl, rfl, rfl, rfl⟩, ⟨rfl, rfl, rfl, rfl, rfl⟩, ⟨rfl, rfl, rfl⟩, ⟨rfl, rfl, rfl⟩, fun _ _ => rfl,
    fun i h => ?_, fun _ _ => rfl, fun h => ?_, fun _ _ => rfl⟩
  · exact absurd h (by simp [unkeyed])
  · exact absurd h (by simp [unkeyed])

theorem witness_OnlyTheKeyScheduleReadsKey :
    exec .subb small = .next (after (exec .subb small)) ∧
      exec .subb { small with key := Vector.replicate 8 1#64 }
        = .next (after (exec .subb { small with key := Vector.replicate 8 1#64 })) :=
  ⟨eq_next_of_goesOn (by decide +kernel), eq_next_of_goesOn (by decide +kernel)⟩

/-- A command that reads and one that does not. -/
theorem witness_DoutIsWrittenByReadingCommandsOnly :
    exec (.rdst 1) small = .next (after (exec (.rdst 1) small)) ∧ executes (.rdst 1) small = true ∧
      exec .subb small = .next (after (exec .subb small)) :=
  ⟨eq_next_of_goesOn (by decide +kernel), by decide +kernel, eq_next_of_goesOn (by decide +kernel)⟩

/-- One command for each clause. -/
theorem witness_ConfigurationIsWrittenByCreateAndDestroyOnly :
    (exec (.create .bits512 .bits256) small = .next (after (exec (.create .bits512 .bits256) small)) ∧
        executes (.create .bits512 .bits256) small = true) ∧
      (exec .destroy small = .next (after (exec .destroy small)) ∧ executes .destroy small = true) ∧
      (exec .destroy State.reset = .next (after (exec .destroy State.reset)) ∧
        executes .destroy State.reset = false) ∧
      exec .subb small = .next (after (exec .subb small)) ∧ small.LegalConfig :=
  ⟨⟨eq_next_of_goesOn (by decide +kernel), by decide +kernel⟩,
    ⟨eq_next_of_goesOn (by decide +kernel), by decide +kernel⟩,
    ⟨eq_next_of_goesOn (by decide +kernel), by decide +kernel⟩, eq_next_of_goesOn (by decide +kernel), small_inv.1⟩

theorem witness_ReadingHasNoSideEffect :
    readValue (.rdrk 10 1) small ≠ none ∧ executes (.rdrk 10 1) small = true ∧
      exec (.rdrk 10 1) small = .next (after (exec (.rdrk 10 1) small)) :=
  ⟨by decide +kernel, by decide +kernel, eq_next_of_goesOn (by decide +kernel)⟩

theorem witness_EachRegisterFileHasItsWriters : exec (.ldaux 1) small = .next (after (exec (.ldaux 1) small)) :=
  eq_next_of_goesOn (by decide +kernel)

/-- Sixteen bytes, two words. -/
theorem witness_WordsAndBytesAreInverse :
    (1 < [ramp 0, ramp 1].length ∧ 7 < 8) ∧ 8 * 1 + 7 < (bytes [ramp 0, ramp 1]).length ∧
      (bytes [ramp 0, ramp 1]).length % 8 = 0 := by decide +kernel

/-- The last byte of the last word. -/
theorem witness_SubstitutionIsByteWiseAndInvertible : 1 < [ramp 0, ramp 1].length ∧ 7 < 8 := by decide

/-- Each of the three block lengths, at the last row and the last column. -/
theorem witness_RowShiftMovesEachByteAndIsInvertible :
    (small.stBlock.length ∈ [2, 4, 8] ∧ 7 < 8 ∧ 1 < small.stBlock.length) ∧ rowsExample.length ∈ [2, 4, 8] ∧
      large.stBlock.length ∈ [2, 4, 8] ∧ 7 < large.stBlock.length := by decide +kernel

theorem witness_DiffusionIsTheMatrixProductAndIsInvertible : 1 < [ramp 0, ramp 1].length := by decide

theorem witness_WordOperatorsActOnEachWordAndUndoEachOther :
    small.stBlock.length = small.auxBlock.length ∧ 1 < small.stBlock.length := by decide +kernel

theorem witness_DecRoundUndoesEncRound :
    small.stBlock.length ∈ [2, 4, 8] ∧ rowsExample.length ∈ [2, 4, 8] ∧ large.stBlock.length ∈ [2, 4, 8] := by
  decide +kernel

/-- The smallest and the largest parameter set, under the constant table of one key. -/
theorem witness_DecipherUndoesEncipher :
    ((2#4, 2#4, 10#5) ∈ legalRows ∧ (∀ r : Nat, ((fun _ => small.auxBlock) r).length = (2#4).toNat) ∧
        small.stBlock.length = (2#4).toNat) ∧
      (8#4, 8#4, 18#5) ∈ legalRows ∧ (∀ r : Nat, ((fun _ => large.auxBlock) r).length = (8#4).toNat) ∧
        large.stBlock.length = (8#4).toNat := by
  have h2 : small.auxBlock.length = (2#4).toNat := by decide +kernel
  have h8 : large.auxBlock.length = (8#4).toNat := by decide +kernel
  exact ⟨⟨by decide, fun _ => h2, by decide +kernel⟩, by decide, fun _ => h8, by decide +kernel⟩

/-- A single-length and a double-length key. -/
theorem witness_EvenKeyLoopHasTheClosedForm :
    ((2#4, 2#4, 10#5) ∈ legalRows ∧ small.keyBlock.length = (2#4).toNat) ∧
      (4#4, 8#4, 18#5) ∈ legalRows ∧ large.keyBlock.length = (8#4).toNat := by decide +kernel

/-- With the first and the last odd key. -/
theorem witness_OddKeysAreRotatedEvenKeys :
    (2#4, 2#4, 10#5) ∈ legalRows ∧ (∀ r : Nat, ((fun _ => small.auxBlock) r).length = (2#4).toNat) ∧
      (∃ e ∈ oddKeys 2 10 (fun _ => small.auxBlock), e.1 = 1) ∧
      ∃ e ∈ oddKeys 2 10 (fun _ => small.auxBlock), e.1 = 9 := by
  have h2 : small.auxBlock.length = (2#4).toNat := by decide +kernel
  exact ⟨by decide, fun _ => h2, by decide +kernel, by decide +kernel⟩

theorem witness_CreateMakesAFreshContext :
    State.reset.err = false ∧ small.err = false ∧
      ∀ row ∈ [(SizeCode.bits128, SizeCode.bits128, 2#4, 2#4, 10#5), (.bits512, .bits512, 8#4, 8#4, 18#5)],
        row ∈ [(SizeCode.bits128, SizeCode.bits128, 2#4, 2#4, 10#5), (.bits128, .bits256, 2#4, 4#4, 14#5),
          (.bits256, .bits256, 4#4, 4#4, 14#5), (.bits256, .bits512, 4#4, 8#4, 18#5),
          (.bits512, .bits512, 8#4, 8#4, 18#5)] := by decide

/-- The reserved code on either side, and each of the four well-formed pairs outside the table. -/
theorem witness_CreateRejectsEveryOtherPair :
    small.err = false ∧ (SizeCode.reserved, SizeCode.bits128) ∉ legalSizes ∧
      (SizeCode.bits128, SizeCode.reserved) ∉ legalSizes ∧ (SizeCode.bits128, SizeCode.bits512) ∉ legalSizes ∧
      (SizeCode.bits256, SizeCode.bits128) ∉ legalSizes ∧ (SizeCode.bits512, SizeCode.bits128) ∉ legalSizes ∧
      (SizeCode.bits512, SizeCode.bits256) ∉ legalSizes := by decide

theorem witness_DestroyEndsTheContext : small.err = false ∧ small.ctx = true := ⟨rfl, rfl⟩

/-- The first and the last word, of the shortest and of the longest block. -/
theorem witness_LdstAndLdauxWriteOneWord :
    (small.Ready ∧ 0 < small.nb.toNat ∧ 1 < small.nb.toNat) ∧ large.Ready ∧ 7 < large.nb.toNat := by decide

theorem witness_LdkeyWritesOneWordAndInvalidatesKt :
    (small.Ready ∧ 1 < small.nk.toNat) ∧ large.Ready ∧ 7 < large.nk.toNat := by decide

/-- The last word of the state, of the last round key and of Kt. -/
theorem witness_ReadCommandsPutTheWordOnDout :
    small.Ready ∧ 1 < small.nb.toNat ∧ flagAt small.stv 1 = true ∧ 10 ≤ small.nr.toNat ∧ flagAt small.rkv 10 = true ∧
      small.ktv = true := by decide +kernel

theorem witness_ByteUnitsPutTheByteOnDout : State.reset.err = false := rfl

/-- `small` meets every condition that a command on a loaded context has. -/
theorem small_ready :
    small.Ready ∧ small.StLoaded ∧ small.AuxLoaded ∧ small.KeyLoaded ∧ small.RkLoaded ∧ small.ktv = true := by
  decide +kernel

/-- So does `large`. -/
theorem large_ready :
    large.Ready ∧ large.StLoaded ∧ large.AuxLoaded ∧ large.KeyLoaded ∧ large.RkLoaded ∧ large.ktv = true := by
  decide +kernel

theorem witness_SubbAndIsubbSubstituteEveryByte : small.Ready ∧ small.StLoaded := ⟨small_ready.1, small_ready.2.1⟩

theorem witness_ShrowAndIshrowMoveEveryByte :
    (small.Ready ∧ small.StLoaded) ∧ large.Ready ∧ large.StLoaded :=
  ⟨⟨small_ready.1, small_ready.2.1⟩, large_ready.1, large_ready.2.1⟩

theorem witness_MixcolAndImixcolMultiplyEveryColumn : small.Ready ∧ small.StLoaded :=
  ⟨small_ready.1, small_ready.2.1⟩

theorem witness_RoundCommandsAreTheirThreeLayers : large.Ready ∧ large.StLoaded := ⟨large_ready.1, large_ready.2.1⟩

/-- With the first and the last round key. -/
theorem witness_RoundKeyInjectionActsWordByWord :
    small.Ready ∧ small.StLoaded ∧ (0 ≤ small.nr.toNat ∧ flagAt small.rkv 0 = true) ∧ 10 ≤ small.nr.toNat ∧
      flagAt small.rkv 10 = true := by decide +kernel

theorem witness_AuxInjectionActsWordByWord : small.Ready ∧ small.StLoaded ∧ small.AuxLoaded :=
  ⟨small_ready.1, small_ready.2.1, small_ready.2.2.1⟩

theorem witness_EncAndDecAreTheirStageCommands : small.Ready ∧ small.StLoaded ∧ small.RkLoaded :=
  ⟨small_ready.1, small_ready.2.1, small_ready.2.2.2.2.1⟩

theorem witness_EncThenDecRestoresTheState : large.Ready ∧ large.StLoaded ∧ large.RkLoaded :=
  ⟨large_ready.1, large_ready.2.1, large_ready.2.2.2.2.1⟩

theorem witness_InverseStageCommandsUndoEachOther :
    (small.Ready ∧ small.StLoaded) ∧ (10 ≤ small.nr.toNat ∧ flagAt small.rkv 10 = true) ∧ small.AuxLoaded :=
  ⟨⟨small_ready.1, small_ready.2.1⟩, by decide +kernel, small_ready.2.2.1⟩

theorem witness_KtgenDerivesKt : small.Ready ∧ small.KeyLoaded := ⟨small_ready.1, small_ready.2.2.2.1⟩

/-- With the first and the last even key. -/
theorem witness_EvenkeysDerivesTheEvenKeys :
    (small.Ready ∧ small.KeyLoaded ∧ small.ktv = true) ∧ 2 * 0 ≤ small.nr.toNat ∧ 2 * 5 ≤ small.nr.toNat :=
  ⟨⟨small_ready.1, small_ready.2.2.2.1, small_ready.2.2.2.2.2⟩, by decide, by decide⟩

/-- With the first and the last odd key, and an entry beyond the table. -/
theorem witness_OddkeysRotatesTheEvenKeys :
    small.Ready ∧ (∀ m, 2 * m < small.nr.toNat → flagAt small.rkv (2 * m) = true) ∧
      (2 * 0 < small.nr.toNat ∧ 2 * 4 < small.nr.toNat ∧ small.nr.toNat < 11) :=
  ⟨small_ready.1, fun _ h => small_ready.2.2.2.2.1 _ (Nat.le_of_lt h), by decide⟩

theorem witness_ExpandIsTheThreeStepsInOne : large.Ready ∧ large.KeyLoaded := ⟨large_ready.1, large_ready.2.2.2.1⟩

end Sys2Proof.Machine
end

section
/-! PROOFS. Nothing stops the machine (spec/00_scope.md rule R6, spec/20_memory.md rule R36, spec/60_exceptions.md rule
R153). Each check passes on the answer of the command behind it or answers a state itself, so a command built from
checks around an effect answers a next state. -/

namespace Sys2Proof.Machine

/-- The machine goes on: the answer is a next state, not a fault and not a refusal. -/
def AnswersNext (k : Result) : Prop := ∃ t, k = .next t

theorem answersNext_next (t : State) : AnswersNext (.next t) := ⟨t, rfl⟩

/-- R153: an error is an entry after which the core goes on. -/
theorem answersNext_raise (code : ErrorCode) (s : State) : AnswersNext (raise code s) := ⟨errorEntry code s, rfl⟩

/-! ### The checks -/

section Checks

variable {k : Result} (s : State) (hk : AnswersNext k)
include hk

theorem answersNext_unlessError : AnswersNext (unlessError s k) := by
  cases he : s.err with
  | true => exact ⟨s, unlessError_of_error k he⟩
  | false => rwa [unlessError_of_clear k he]

theorem answersNext_require (c : Bool) (code : ErrorCode) : AnswersNext (require c code s k) := by
  cases c with
  | true => rwa [require_of_true code s k rfl]
  | false => exact ⟨errorEntry code s, require_of_false code s k rfl⟩

theorem answersNext_requireContext : AnswersNext (requireContext s k) := answersNext_require s hk _ _

theorem answersNext_requireState : AnswersNext (requireState s k) :=
  answersNext_requireContext s (answersNext_require s hk _ _)

theorem answersNext_requireKey : AnswersNext (requireKey s k) := answersNext_require s hk _ _

theorem answersNext_requireWord (w : Nat) (n : BitVec 4) : AnswersNext (requireWord w n s k) :=
  answersNext_require s hk _ _

/-- The gates that every command working in a context begins with. -/
theorem answersNext_inContext : AnswersNext (unlessError s (requireContext s k)) :=
  answersNext_unlessError s (answersNext_requireContext s hk)

/-- The gates of a command that works on one word of a register file. -/
theorem answersNext_onWord (w : Nat) (n : BitVec 4) :
    AnswersNext (unlessError s (requireContext s (requireWord w n s k))) :=
  answersNext_inContext s (answersNext_requireWord s hk w n)

end Checks

/-! ### The shared operations -/

theorem answersNext_transformState (f : Block → Block) (s : State) : AnswersNext (transformState f s) :=
  answersNext_unlessError s (answersNext_requireState s (answersNext_next _))

theorem answersNext_transformBlock (f : (Nat → Block) → Nat → Block → Block) (s : State) :
    AnswersNext (transformBlock f s) :=
  answersNext_unlessError s (answersNext_requireState s (answersNext_require s (answersNext_next _) _ _))

theorem answersNext_injectAux (op : Block → Block → Block) (s : State) : AnswersNext (injectAux op s) :=
  answersNext_unlessError s (answersNext_requireState s (answersNext_require s (answersNext_next _) _ _))

theorem answersNext_injectRoundKey (op : Block → Block → Block) (r : Nat) (s : State) :
    AnswersNext (injectRoundKey op r s) := by
  refine answersNext_inContext s (answersNext_require s ?_ _ _)
  exact answersNext_require s (answersNext_require s (answersNext_next _) _ _) _ _

/-- R231: a pair of sizes that is no row of the parameter table raises an error, and a row makes a context. -/
theorem answersNext_execCreate (ksz bsz : SizeCode) (s : State) : AnswersNext (execCreate ksz bsz s) := by
  refine answersNext_unlessError s ?_
  cases paramRow bsz ksz with
  | none => exact answersNext_raise .invalidParams s
  | some row => exact answersNext_next _

theorem answersNext_illegalCommand (s : State) : AnswersNext (illegalCommand s) :=
  answersNext_unlessError s (answersNext_raise .illegalCmd s)

/-! ### Every command, and the step -/

/-- Each arm names the checks of its command, in their order (R36: every command completes). -/
theorem answersNext_exec (i : Instr) (s : State) : AnswersNext (exec i s) := by
  cases i with
  | nop | clrerr | rdstat => exact answersNext_next _
  | create ksz bsz => exact answersNext_execCreate ksz bsz s
  | gfmul | sbox | isbox => exact answersNext_unlessError s (answersNext_next _)
  | destroy => exact answersNext_inContext s (answersNext_next _)
  | ldst | ldkey | ldaux => exact answersNext_onWord s (answersNext_next _) _ _
  | rdst | rdkt => exact answersNext_onWord s (answersNext_require s (answersNext_next _) _ _) _ _
  | rdrk =>
    refine answersNext_inContext s (answersNext_require s (answersNext_requireWord s ?_ _ _) _ _)
    exact answersNext_require s (answersNext_next _) _ _
  | subb | isubb | shrow | ishrow | mixcol | imixcol | eround | dround => exact answersNext_transformState _ s
  | addrk r | subrk r | xorrk r => exact answersNext_injectRoundKey _ r s
  | addx | xorx => exact answersNext_injectAux _ s
  | ktgen | expand => exact answersNext_inContext s (answersNext_requireKey s (answersNext_next _))
  | evenkeys =>
    exact answersNext_inContext s (answersNext_requireKey s (answersNext_require s (answersNext_next _) _ _))
  | oddkeys => exact answersNext_inContext s (answersNext_require s (answersNext_next _) _ _)
  | enc | dec => exact answersNext_transformBlock _ s

theorem answersNext_step (s : State) : AnswersNext (step s) := by
  obtain ⟨-, idle⟩ | ⟨_, -, reset⟩ | ⟨_, _, _, i, -, -, command⟩ | ⟨_, _, _, _, -, -, illegal⟩ := step_cases s
  · exact ⟨_, idle⟩
  · exact ⟨_, reset⟩
  · rw [command]
    exact answersNext_exec i _
  · rw [illegal]
    exact answersNext_illegalCommand _

/-- Settles O9: a step waits, resets, executes a command or rejects a word, and every command is its checks around an
effect. -/
theorem everyStepAnswersANextState : Obligations.EveryStepAnswersANextState :=
  ⟨answersNext_step, answersNext_exec⟩

end Sys2Proof.Machine
end

section
/-! PROOFS. What a command answers, said once: the checks of R152 in their order, then the command's effect
(spec/60_exceptions.md rules R152 to R154). Every statement about `exec` below follows from `exec_cases` and from what
`effect` does. -/

namespace Sys2Proof.Machine

/-- What a command does once its checks have passed. -/
def effect (i : Instr) (s : State) : State :=
  match i with
  | .nop => s
  | .create ksz bsz => (paramRow bsz ksz).elim s fun row => createContext row.1 row.2.1 row.2.2 s
  | .destroy => destroyContext s
  | .clrerr => clearError s
  | .rdstat => setDout s.status s
  | .ldst w => loadSt w s.din s
  | .ldkey w => invalidateKt (loadKey w s.din s)
  | .ldaux w => loadAux w s.din s
  | .rdst w => setDout (wordAt s.st w) s
  | .rdrk r w => setDout (wordAt (s.rkEntry r) w) s
  | .rdkt w => setDout (wordAt s.kt w) s
  | .gfmul a b => setDout ((gfMul a b).setWidth 64) s
  | .sbox t => setDout ((tables.sbox t s.dinByte).setWidth 64) s
  | .isbox t => setDout ((sboxInv tables t s.dinByte).setWidth 64) s
  | .subb => writeSt (subBytes tables s.stBlock) s
  | .isubb => writeSt (invSubBytes tables s.stBlock) s
  | .shrow => writeSt (shiftRows s.stBlock) s
  | .ishrow => writeSt (invShiftRows s.stBlock) s
  | .mixcol => writeSt (mixColumns tables s.stBlock) s
  | .imixcol => writeSt (invMixColumns tables s.stBlock) s
  | .eround => writeSt (encRound tables s.stBlock) s
  | .dround => writeSt (decRound tables s.stBlock) s
  | .addrk r => writeSt (addW s.stBlock (s.roundKey r)) s
  | .subrk r => writeSt (subW s.stBlock (s.roundKey r)) s
  | .xorrk r => writeSt (xorW s.stBlock (s.roundKey r)) s
  | .addx => writeSt (addW s.stBlock s.auxBlock) s
  | .xorx => writeSt (xorW s.stBlock s.auxBlock) s
  | .ktgen => ktgenEffect s
  | .evenkeys => evenkeysEffect s
  | .oddkeys => oddkeysEffect s
  | .expand => expandEffect s
  | .enc => writeSt (encipher tables s.roundKey s.nr.toNat s.stBlock) s
  | .dec => writeSt (decipher tables s.roundKey s.nr.toNat s.stBlock) s

/-- Steps 3 and 4 of the execution sequence (R152): the checks in their priority, then the effect. -/
def checked (i : Instr) (s : State) : Result :=
  require (parametersLegal i) .invalidParams s <| require (needsNoContext i || s.ctx) .noContext s <|
    require (indicesInRange s i) .indexRange s <| require (operandsWritten s i) .unwritten s <| .next (effect i s)

/-- Two checks with the same code are one check of both. -/
theorem require_and (a b : Bool) (code : ErrorCode) (s : State) (k : Result) :
    require (a && b) code s k = require a code s (require b code s k) := by
  cases a <;> rfl

/-- The even entries that ODDKEYS reads (R136), counted by their odd neighbours or by themselves. -/
theorem all_oddIndices (nr : Nat) (p : Nat → Bool) :
    ((oddIndices nr).all fun i => p (i - 1)) = (List.range (nr / 2)).all fun m => p (2 * m) := by
  simp [oddIndices, List.all_map, Function.comp_def]

/-- Every command but NOP, CLRERR and RDSTAT stands behind the ERR gate (R152 step 2), and makes the checks of the error
table in its order. -/
theorem exec_eq_unlessError_checked (i : Instr) (s : State) (hi : runsInErrorState i = false) :
    exec i s = unlessError s (checked i s) := by
  cases i with
  | nop | clrerr | rdstat => cases hi
  | create ksz bsz => cases bsz <;> cases ksz <;> rfl
  | destroy | ldst | ldkey | ldaux | rdst | rdkt | gfmul | sbox | isbox | ktgen | expand => rfl
  | subb | isubb | shrow | ishrow | mixcol | imixcol | eround | dround => rfl
  | rdrk r w =>
    rw [checked, indicesInRange, require_and]
    rfl
  | addrk | subrk | xorrk | addx | xorx | evenkeys | enc | dec =>
    rw [checked, operandsWritten, require_and]
    rfl
  | oddkeys =>
    rw [checked, operandsWritten, ← all_oddIndices]
    rfl

/-- NOP, CLRERR and RDSTAT have no gate and no check. -/
theorem exec_of_runsInErrorState (i : Instr) (s : State) (hi : runsInErrorState i = true) :
    executes i s = true ∧ exec i s = .next (effect i s) := by
  cases i with
  | nop | clrerr | rdstat => exact ⟨rfl, rfl⟩
  | _ => cases hi

/-- A command has no error where each of its four checks holds. -/
theorem errorOf_eq_none_iff (i : Instr) (s : State) :
    errorOf i s = none ↔ parametersLegal i = true ∧ (needsNoContext i || s.ctx) = true ∧
      indicesInRange s i = true ∧ operandsWritten s i = true := by
  simp only [errorOf]
  generalize (needsNoContext i || s.ctx) = inContext
  split_ifs <;> simp_all

theorem checked_of_no_error {i : Instr} {s : State} (h : errorOf i s = none) : checked i s = .next (effect i s) := by
  obtain ⟨hp, hc, hr, hw⟩ := (errorOf_eq_none_iff i s).mp h
  rw [checked, require_of_true _ _ _ hp, require_of_true _ _ _ hc, require_of_true _ _ _ hr, require_of_true _ _ _ hw]

/-- The first check that fails gives the error. -/
theorem checked_of_error {i : Instr} {s : State} {code : ErrorCode} (h : errorOf i s = some code) :
    checked i s = .next (errorEntry code s) := by
  simp only [errorOf] at h
  unfold checked
  generalize (needsNoContext i || s.ctx) = inContext at h ⊢
  split_ifs at h <;> simp_all

/-- Where a command executes (R152), it is behind no error and each of its checks holds. -/
theorem executes_iff (i : Instr) (s : State) :
    executes i s = true ↔ (runsInErrorState i = true ∨ s.err = false) ∧ parametersLegal i = true ∧
      (needsNoContext i = true ∨ s.ctx = true) ∧ indicesInRange s i = true ∧ operandsWritten s i = true := by
  simp [executes, errorOf_eq_none_iff]

/-- A command that executes answers its effect. -/
theorem exec_of_executes {i : Instr} {s : State} (hx : executes i s = true) : exec i s = .next (effect i s) := by
  cases hi : runsInErrorState i with
  | true => exact (exec_of_runsInErrorState i s hi).2
  | false =>
    simp only [executes, hi, Bool.false_or, Bool.and_eq_true, Bool.not_eq_true', Option.isNone_iff_eq_none] at hx
    rw [exec_eq_unlessError_checked i s hi, unlessError_of_clear _ hx.1, checked_of_no_error hx.2]

/-- R154: a command that meets ERR = 1 and does not execute is ignored. -/
theorem exec_of_ignored {i : Instr} {s : State} (hx : executes i s = false) (he : s.err = true) :
    exec i s = .next s := by
  cases hi : runsInErrorState i with
  | true => rw [(exec_of_runsInErrorState i s hi).1] at hx; cases hx
  | false => rw [exec_eq_unlessError_checked i s hi, unlessError_of_error _ he]

/-- R153: a command with an error answers the error entry. -/
theorem exec_of_errorOf {i : Instr} {s : State} {code : ErrorCode} (he : s.err = false) (hc : errorOf i s = some code) :
    exec i s = .next (errorEntry code s) := by
  cases hi : runsInErrorState i with
  | true => simpa [executes, hc] using (exec_of_runsInErrorState i s hi).1
  | false => rw [exec_eq_unlessError_checked i s hi, unlessError_of_clear _ he, checked_of_error hc]

/-- Everything a command can answer: its effect where it executes, the state as it was where it is ignored, and the
error entry where it faults. -/
theorem exec_cases {i : Instr} {s t : State} (h : exec i s = .next t) :
    (executes i s = true ∧ t = effect i s) ∨ (executes i s = false ∧ s.err = true ∧ t = s) ∨
      (executes i s = false ∧ s.err = false ∧ ∃ code, errorOf i s = some code ∧ t = errorEntry code s) := by
  cases hx : executes i s with
  | true => exact .inl ⟨rfl, by simpa [exec_of_executes hx, eq_comm] using h⟩
  | false =>
    cases he : s.err with
    | true => exact .inr (.inl ⟨rfl, rfl, by simpa [exec_of_ignored hx he, eq_comm] using h⟩)
    | false =>
      obtain ⟨code, hc⟩ : ∃ code, errorOf i s = some code := by
        simpa [executes, he, Option.isNone_eq_false_iff, Option.isSome_iff_exists] using hx
      exact .inr (.inr ⟨rfl, rfl, code, hc, by simpa [exec_of_errorOf he hc, eq_comm] using h⟩)

end Sys2Proof.Machine
end

section
/-! PROOFS. Which fields a command's effect leaves alone, and the statements that follow: DOUT and the configuration
change by their writers only, each register file by its writers (spec/10_state.md rules R19 to R25), and KEY is read by
the key schedule only (R20). -/

namespace Sys2Proof.Machine

/-! ### Writing round keys: the other fields -/

section RoundKeyWrites

variable (keys : List (Nat × Block)) (s : State)

@[simp] theorem writeRks_st : (writeRks keys s).st = s.st := by rw [writeRks_frame]
@[simp] theorem writeRks_stv : (writeRks keys s).stv = s.stv := by rw [writeRks_frame]
@[simp] theorem writeRks_key : (writeRks keys s).key = s.key := by rw [writeRks_frame]
@[simp] theorem writeRks_keyv : (writeRks keys s).keyv = s.keyv := by rw [writeRks_frame]
@[simp] theorem writeRks_aux : (writeRks keys s).aux = s.aux := by rw [writeRks_frame]
@[simp] theorem writeRks_auxv : (writeRks keys s).auxv = s.auxv := by rw [writeRks_frame]
@[simp] theorem writeRks_kt : (writeRks keys s).kt = s.kt := by rw [writeRks_frame]
@[simp] theorem writeRks_ktv : (writeRks keys s).ktv = s.ktv := by rw [writeRks_frame]
@[simp] theorem writeRks_dout : (writeRks keys s).dout = s.dout := by rw [writeRks_frame]
@[simp] theorem writeRks_ctx : (writeRks keys s).ctx = s.ctx := by rw [writeRks_frame]
@[simp] theorem writeRks_nb : (writeRks keys s).nb = s.nb := by rw [writeRks_frame]
@[simp] theorem writeRks_nk : (writeRks keys s).nk = s.nk := by rw [writeRks_frame]
@[simp] theorem writeRks_nr : (writeRks keys s).nr = s.nr := by rw [writeRks_frame]
@[simp] theorem writeRks_err : (writeRks keys s).err = s.err := by rw [writeRks_frame]
@[simp] theorem writeRks_ecode : (writeRks keys s).ecode = s.ecode := by rw [writeRks_frame]
@[simp] theorem writeRks_eopc : (writeRks keys s).eopc = s.eopc := by rw [writeRks_frame]
@[simp] theorem writeRks_cmd : (writeRks keys s).cmd = s.cmd := by rw [writeRks_frame]
@[simp] theorem writeRks_din : (writeRks keys s).din = s.din := by rw [writeRks_frame]
@[simp] theorem writeRks_pending : (writeRks keys s).pending = s.pending := by rw [writeRks_frame]

/-- KEY has no part in it. -/
theorem writeRks_withKey (k : Vector Word 8) : writeRks keys { s with key := k } = { writeRks keys s with key := k } := by
  induction keys generalizing s with
  | nil => rfl
  | cons e es ih => exact ih (writeRk e.1 e.2 s)

end RoundKeyWrites

/-! ### Frames of the effects -/

/-- R24: a reading command's effect writes the word it reads to DOUT, and every other effect keeps DOUT. -/
theorem effect_dout (i : Instr) (s : State) : (effect i s).dout = (readValue i s).getD s.dout := by
  cases i with
  | create ksz bsz => cases hp : paramRow bsz ksz <;> simp [effect, hp, readValue, createContext, invalidateAll]
  | evenkeys => simp [effect, evenkeysEffect, readValue]
  | oddkeys => simp [effect, oddkeysEffect, readValue]
  | expand => simp [effect, expandEffect, readValue]
  | _ => rfl

/-- Every effect but those of CREATE and DESTROY keeps the configuration (R25). -/
theorem effect_config {i : Instr} (s : State) (hc : ∀ ksz bsz, i ≠ .create ksz bsz) (hd : i ≠ .destroy) :
    ((effect i s).ctx, (effect i s).nb, (effect i s).nk, (effect i s).nr) = (s.ctx, s.nb, s.nk, s.nr) := by
  cases i with
  | create ksz bsz => exact absurd rfl (hc ksz bsz)
  | destroy => exact absurd rfl hd
  | evenkeys => simp [effect, evenkeysEffect]
  | oddkeys => simp [effect, oddkeysEffect]
  | expand => simp [effect, expandEffect]
  | _ => rfl

/-- Two states that differ in KEY alone have effects that differ in KEY alone, where KEY is not read (R20). -/
theorem effect_withKey {i : Instr} (s : State) (k : Vector Word 8) (hk : i ≠ .ktgen) (he : i ≠ .evenkeys)
    (hx : i ≠ .expand) :
    effect i { s with key := k } = { effect i s with key := (effect i { s with key := k }).key } := by
  cases i with
  | ktgen => exact absurd rfl hk
  | evenkeys => exact absurd rfl he
  | expand => exact absurd rfl hx
  | create ksz bsz => cases hp : paramRow bsz ksz <;> simp only [effect, hp] <;> rfl
  | oddkeys =>
    have keys : effect .oddkeys { s with key := k } = { effect .oddkeys s with key := k } := writeRks_withKey _ s k
    rw [keys]
  | _ => rfl

/-! ### CREATE -/

/-- CREATE accepts the sizes that are a row of the parameter table (R231). -/
theorem isSome_paramRow (ksz bsz : SizeCode) : (paramRow bsz ksz).isSome = parametersLegal (.create ksz bsz) := by
  cases bsz <;> cases ksz <;> rfl

/-- The rows of the parameter table are the legal ones (R7). -/
theorem mem_legalRows_of_paramRow {ksz bsz : SizeCode} {row : BitVec 4 × BitVec 4 × BitVec 5}
    (h : paramRow bsz ksz = some row) : row ∈ legalRows := by
  cases bsz <;> cases ksz <;> cases h <;> decide

/-- A CREATE that executes makes the context of a legal row. -/
theorem effect_create {ksz bsz : SizeCode} {s : State} (hx : executes (.create ksz bsz) s = true) :
    ∃ nb nk nr, (nb, nk, nr) ∈ legalRows ∧ effect (.create ksz bsz) s = createContext nb nk nr s := by
  obtain ⟨-, hp, -⟩ := (executes_iff _ s).mp hx
  obtain ⟨row, hrow⟩ := Option.isSome_iff_exists.mp ((isSome_paramRow ksz bsz).trans hp)
  exact ⟨row.1, row.2.1, row.2.2, mem_legalRows_of_paramRow hrow, by rw [effect, hrow]; rfl⟩

/-- A context that CREATE made is a legal one. -/
theorem legalConfig_createContext {nb nk : BitVec 4} {nr : BitVec 5} (s : State) (h : (nb, nk, nr) ∈ legalRows) :
    (createContext nb nk nr s).LegalConfig :=
  ⟨fun _ => h, fun hc => Bool.noConfusion hc⟩

/-- Without a context the configuration is 0. -/
theorem legalConfig_destroyContext (s : State) : (destroyContext s).LegalConfig :=
  ⟨fun hc => Bool.noConfusion hc, fun _ => ⟨rfl, rfl, rfl⟩⟩

/-- The configuration is legal or not by its four fields alone. -/
theorem legalConfig_congr {s t : State} (h : (t.ctx, t.nb, t.nk, t.nr) = (s.ctx, s.nb, s.nk, s.nr))
    (hs : s.LegalConfig) : t.LegalConfig := by
  simp only [Prod.mk.injEq] at h
  obtain ⟨hctx, hnb, hnk, hnr⟩ := h
  rwa [State.LegalConfig, hctx, hnb, hnk, hnr]

/-! ### The statements -/

/-- Settles O20: whether a command executes and which error it has does not depend on KEY, and neither does its
effect. -/
theorem onlyTheKeyScheduleReadsKey : Obligations.OnlyTheKeyScheduleReadsKey := by
  intro i s t u k hk he hx ht hu
  obtain ⟨hsx, rfl⟩ | ⟨hsx, hse, rfl⟩ | ⟨-, hse, code, hsc, rfl⟩ := exec_cases ht
  · have ran : exec i { s with key := k } = .next (effect i { s with key := k }) := exec_of_executes hsx
    cases ran.symm.trans hu
    exact effect_withKey s k hk he hx
  · have ignored : exec i { t with key := k } = .next { t with key := k } := exec_of_ignored hsx hse
    cases ignored.symm.trans hu
    rfl
  · have faulted : exec i { s with key := k } = .next (errorEntry code { s with key := k }) := exec_of_errorOf hse hsc
    cases faulted.symm.trans hu
    rfl

/-- Settles O21: an effect writes DOUT as R24 says, and a command that is ignored or faults keeps it. -/
theorem doutIsWrittenByReadingCommandsOnly : Obligations.DoutIsWrittenByReadingCommandsOnly := by
  refine ⟨fun i s t h => ?_, rfl⟩
  obtain ⟨hx, rfl⟩ | ⟨hx, -, rfl⟩ | ⟨hx, -, code, -, rfl⟩ := exec_cases h
  · rw [hx, if_pos rfl, effect_dout]
  all_goals simp [hx]

/-- Settles O22: the legal row comes from the parameter table, and the frame of the other effects does the rest. -/
theorem configurationIsWrittenByCreateAndDestroyOnly : Obligations.ConfigurationIsWrittenByCreateAndDestroyOnly := by
  intro i s t h
  obtain ⟨hx, rfl⟩ | ⟨hx, -, rfl⟩ | ⟨hx, -, code, -, rfl⟩ := exec_cases h
  · by_cases hc : ∃ ksz bsz, i = .create ksz bsz
    · obtain ⟨ksz, bsz, rfl⟩ := hc
      obtain ⟨nb, nk, nr, hrow, hcreate⟩ := effect_create hx
      rw [hcreate]
      exact ⟨fun _ _ => ⟨rfl, hrow⟩, nofun, fun h => by simp [hx] at h, fun _ => legalConfig_createContext s hrow⟩
    by_cases hd : i = .destroy
    · subst hd
      exact ⟨nofun, fun _ _ => rfl, fun h => by simp [hx] at h, fun _ => legalConfig_destroyContext s⟩
    · have frame := effect_config s (fun ksz bsz he => hc ⟨ksz, bsz, he⟩) hd
      exact ⟨fun _ h => absurd h hc, fun _ h => absurd h hd, fun _ => frame, legalConfig_congr frame⟩
  all_goals exact ⟨fun h => by simp [hx] at h, fun h => by simp [hx] at h, fun _ => rfl, id⟩

/-- Settles O24: each effect names the register files it writes, and a command that is ignored or faults writes none. -/
theorem eachRegisterFileHasItsWriters : Obligations.EachRegisterFileHasItsWriters := by
  intro i s t h
  obtain ⟨hx, rfl⟩ | ⟨-, -, rfl⟩ | ⟨-, -, code, -, rfl⟩ := exec_cases h
  · cases i with
    | create ksz bsz => exact .inl (.inl ⟨ksz, bsz, rfl⟩)
    | destroy => exact .inl (.inr rfl)
    | nop | clrerr | rdstat | rdst | rdrk | rdkt | gfmul | sbox | isbox =>
      exact .inr ⟨.inr ⟨rfl, rfl⟩, .inr ⟨rfl, rfl⟩, .inr ⟨rfl, rfl⟩, .inr ⟨rfl, rfl⟩, .inr ⟨rfl, rfl⟩⟩
    | ldst | subb | isubb | shrow | ishrow | mixcol | imixcol | eround | dround | addrk | subrk | xorrk | addx | xorx
    | enc | dec =>
      exact .inr ⟨.inl (by simp [mnemonic]), .inr ⟨rfl, rfl⟩, .inr ⟨rfl, rfl⟩, .inr ⟨rfl, rfl⟩, .inr ⟨rfl, rfl⟩⟩
    | ldkey =>
      exact .inr ⟨.inr ⟨rfl, rfl⟩, .inl (by simp [mnemonic]), .inr ⟨rfl, rfl⟩, .inl (by simp [mnemonic]),
        .inr ⟨rfl, rfl⟩⟩
    | ldaux =>
      exact .inr ⟨.inr ⟨rfl, rfl⟩, .inr ⟨rfl, rfl⟩, .inl (by simp [mnemonic]), .inr ⟨rfl, rfl⟩, .inr ⟨rfl, rfl⟩⟩
    | ktgen =>
      exact .inr ⟨.inl (by simp [mnemonic]), .inr ⟨rfl, rfl⟩, .inr ⟨rfl, rfl⟩, .inl (by simp [mnemonic]),
        .inr ⟨rfl, rfl⟩⟩
    | evenkeys => simp [effect, evenkeysEffect, mnemonic]
    | oddkeys => simp [effect, oddkeysEffect, mnemonic]
    | expand => simp [effect, expandEffect, mnemonic]
  all_goals exact .inr ⟨.inr ⟨rfl, rfl⟩, .inr ⟨rfl, rfl⟩, .inr ⟨rfl, rfl⟩, .inr ⟨rfl, rfl⟩, .inr ⟨rfl, rfl⟩⟩

/-! ### The step and the state after reset -/

theorem step_of_nothing_pending {s : State} (h : s.pending = []) : step s = .next s := by
  simp [step, transact, takeEvent, h]

theorem step_of_reset {s : State} {rest : List HostEvent} (h : s.pending = .reset :: rest) :
    step s = .next (resetCore { s with pending := rest }) := by
  simp [step, transact, takeEvent, h]

/-- R200: the step of a pending command runs what stands on the port. -/
theorem step_of_command {s : State} {c : CmdWord} {d : Word} {rest : List HostEvent}
    (h : s.pending = .command c d :: rest) : step s = executePort (s.withPort c d rest) := by
  simp [step, transact, takeEvent, h]

/-- Settles O6: the word on the port decodes to the command that the step runs. -/
theorem stepRunsTheDecodedCommand : Obligations.StepRunsTheDecodedCommand := by
  intro s c d rest i hp hd
  rw [step_of_command hp]
  simp [executePort, hd]

/-- Settles O14: the fields are those of the table, and no bit of a cleared vector is 1. -/
theorem stateAfterResetHasTheValuesOfTheTable : Obligations.StateAfterResetHasTheValuesOfTheTable :=
  ⟨⟨rfl, rfl, rfl, rfl⟩, ⟨rfl, rfl, rfl, rfl⟩,
    fun i => ⟨flagAt_replicate_false 8 i, flagAt_replicate_false 8 i, flagAt_replicate_false 8 i⟩,
    ⟨rfl, flagAt_replicate_false 19⟩, rfl, by decide⟩

/-- Settles O15: the configuration is 0, and Kt and every round key are invalid. -/
theorem resetSatisfiesTheInvariants : Obligations.ResetSatisfiesTheInvariants := by
  refine ⟨by decide, fun ktv => Bool.noConfusion ktv, fun m odd => ?_⟩
  have invalid : flagAt State.reset.rkv (2 * m + 1) = false := flagAt_replicate_false 19 _
  rw [invalid] at odd
  cases odd

end Sys2Proof.Machine
end

section
/-! PROOFS. The shape of the key schedule's results (spec/47_key_schedule.md rules R130 to R134): which round keys it
lists, and that each has `nb` words. -/

namespace Sys2Proof.Machine

/-- What the legal rows (R7) have in common. -/
theorem bounds_of_mem_legalRows {nb nk : BitVec 4} {nr : BitVec 5} (h : (nb, nk, nr) ∈ legalRows) :
    0 < nb.toNat ∧ nb.toNat ≤ nk.toNat ∧ nk.toNat ≤ 8 ∧ nr.toNat % 2 = 0 := by
  simp only [legalRows, List.mem_cons, Prod.mk.injEq, List.not_mem_nil, or_false] at h
  obtain ⟨rfl, rfl, rfl⟩ | ⟨rfl, rfl, rfl⟩ | ⟨rfl, rfl, rfl⟩ | ⟨rfl, rfl, rfl⟩ | ⟨rfl, rfl, rfl⟩ := h <;> decide

/-! ### The even round keys -/

section EvenKeys

variable (T : Config.Tables) (kt : Block) (nb nk nr : Nat)

/-- The loop of R132, `k` even indices before its exit, lists the even indices up to `nr` in order. -/
theorem map_fst_evenLoop (fuel idx k : Nat) (tmv wk : Block) (hk : idx + 2 * k = nr) (hf : k < fuel) :
    (evenLoop T kt nb nk nr fuel idx tmv wk).map Prod.fst = List.range' idx (k + 1) 2 := by
  induction fuel generalizing idx k tmv wk with
  | zero => omega
  | succ fuel ih =>
    by_cases last : idx = nr
    · obtain rfl : k = 0 := by omega
      simp [evenLoop, last]
    obtain ⟨k, rfl⟩ : ∃ j, k = j + 1 := ⟨k - 1, by omega⟩
    by_cases two : nk = 2 * nb
    · by_cases second : idx + 2 = nr
      · obtain rfl : k = 0 := by omega
        simp only [evenLoop, if_neg last, if_pos two, if_pos second]
        rfl
      · obtain ⟨k, rfl⟩ : ∃ j, k = j + 1 := ⟨k - 1, by omega⟩
        simp only [evenLoop, if_neg last, if_pos two, if_neg second, List.map_cons,
          ih (idx + 4) k _ _ (by omega) (by omega)]
        rfl
    · simp only [evenLoop, if_neg last, if_neg two, List.map_cons, ih (idx + 2) k _ _ (by omega) (by omega)]
      rfl

/-- Every key that the loop derives has `nb` words. -/
theorem length_of_mem_evenLoop (hkt : kt.length = nb) (hnb : nb ≤ nk) (fuel idx : Nat) (tmv wk : Block)
    (htmv : tmv.length = nb) (hwk : wk.length = nk) :
    ∀ e ∈ evenLoop T kt nb nk nr fuel idx tmv wk, e.2.length = nb := by
  induction fuel generalizing idx tmv wk with
  | zero => simp [evenLoop]
  | succ fuel ih =>
    have first : (derive T kt (wk.take nb) tmv).length = nb := by simp [length_derive, hkt, htmv, hwk, hnb]
    have second (two : nk = 2 * nb) : (derive T kt ((wk.drop nb).take nb) (tmvShift tmv)).length = nb := by
      simp [length_derive, hkt, htmv, hwk]
      omega
    have later (idx : Nat) (tmv : Block) (htmv : tmv.length = nb) := ih idx tmv (rotateWords wk) htmv (by simpa)
    simp only [evenLoop]
    split_ifs with _ two _
    · simpa using first
    · simpa using ⟨first, second two⟩
    · exact List.forall_mem_cons.mpr ⟨first, List.forall_mem_cons.mpr ⟨second two, later _ _ (by simpa)⟩⟩
    · exact List.forall_mem_cons.mpr ⟨first, later _ _ (by simpa)⟩

end EvenKeys

/-- EvenKeys lists the even indices `0, 2, ..., nr` (R132). -/
theorem map_fst_evenKeys (T : Config.Tables) (nb nk : Nat) {nr : Nat} (key kt : Block) (hnr : nr % 2 = 0) :
    (evenKeys T nb nk nr key kt).map Prod.fst = List.range' 0 (nr / 2 + 1) 2 :=
  map_fst_evenLoop T kt nb nk nr _ 0 (nr / 2) _ _ (by omega) (by omega)

theorem mem_map_fst_evenKeys (T : Config.Tables) (nb nk : Nat) {nr : Nat} (key kt : Block) (hnr : nr % 2 = 0) (r : Nat) :
    r ∈ (evenKeys T nb nk nr key kt).map Prod.fst ↔ r % 2 = 0 ∧ r ≤ nr := by
  rw [map_fst_evenKeys T nb nk key kt hnr, List.mem_range']
  constructor
  · rintro ⟨m, hm, rfl⟩
    omega
  · rintro ⟨even, le⟩
    exact ⟨r / 2, by omega, by omega⟩

/-- Every even round key has `nb` words. -/
theorem length_of_mem_evenKeys (T : Config.Tables) {nb nk : Nat} (nr : Nat) {key kt : Block} (hkey : key.length = nk)
    (hkt : kt.length = nb) (hnb : nb ≤ nk) : ∀ e ∈ evenKeys T nb nk nr key kt, e.2.length = nb :=
  length_of_mem_evenLoop T kt nb nk nr hkt hnb _ 0 (tmvInit nb) key (by simp [tmvInit]) hkey

/-! ### The odd round keys -/

@[simp] theorem length_bytes (v : Block) : (bytes v).length = 8 * v.length := by
  simp [bytes, Nat.mul_comm]

/-- Eight bytes make a word. -/
theorem length_words (b : List Byte) : (words b).length = b.length / 8 := by
  induction b using words.induct with
  | case1 b0 b1 b2 b3 b4 b5 b6 b7 rest ih =>
    rw [words, List.length_cons, ih]
    simp only [List.length_cons]
    omega
  | case2 b short =>
    rcases b with _ | ⟨b0, _ | ⟨b1, _ | ⟨b2, _ | ⟨b3, _ | ⟨b4, _ | ⟨b5, _ | ⟨b6, _ | ⟨b7, rest⟩⟩⟩⟩⟩⟩⟩⟩
    case cons.cons.cons.cons.cons.cons.cons.cons => exact absurd rfl (short b0 b1 b2 b3 b4 b5 b6 b7 rest)
    all_goals simp [words]

/-- An odd round key is as long as the even one it is made from. -/
@[simp] theorem length_oddKey (nb : Nat) (even : Block) : (oddKey nb even).length = even.length := by
  simp [oddKey, length_words]

/-- OddKeys makes one round key for each odd index below `nr`, from the even one before it (R134). -/
theorem mem_oddKeys (nb nr : Nat) (rk : Nat → Block) (e : Nat × Block) :
    e ∈ oddKeys nb nr rk ↔ ∃ m < nr / 2, e = (2 * m + 1, oddKey nb (rk (2 * m))) := by
  simp [oddKeys, oddIndices, eq_comm]

/-- The block listed for an index that is listed is one of the list's. -/
theorem mem_lookupKey {keys : List (Nat × Block)} {r : Nat} (h : r ∈ keys.map Prod.fst) :
    (r, lookupKey keys r) ∈ keys := by
  induction keys with
  | nil => cases h
  | cons e es ih =>
    obtain ⟨k, b⟩ := e
    by_cases he : r = k
    · subst he
      simp [lookupKey]
    · have later : r ∈ es.map Prod.fst := by simpa [he] using h
      have skip : lookupKey ((k, b) :: es) r = lookupKey es r := by
        simp only [lookupKey, List.lookup_cons, beq_false_of_ne he]
      rw [skip]
      exact List.mem_cons_of_mem _ (ih later)

end Sys2Proof.Machine
end

section
/-! PROOFS. The invariant of every step (spec/10_state.md rules R17, R18, R25, R26): each register operation keeps the
valid bits in range, so each effect does, and the configuration and the error fields follow from the frames. -/

namespace Sys2Proof.Machine

/-! ### Valid bits in range -/

/-- A property of the valid bits of a register file, said of its places or of its indices. -/
theorem forall_fin_iff_flagAt {n : Nat} (v : Vector Bool n) (P : Nat → Prop) :
    (∀ i : Fin n, v[i] = true → P i.val) ↔ ∀ i, flagAt v i = true → P i := by
  constructor
  · intro h i hi
    rcases Nat.lt_or_ge i n with hlt | hge
    · exact h ⟨i, hlt⟩ (by simpa [flagAt_of_lt v hlt] using hi)
    · rw [flagAt_of_ge v hge] at hi
      cases hi
  · intro h i hi
    exact h i (by simpa [flagAt_of_lt v i.isLt] using hi)

/-- The valid bits in range, said with `flagAt`. -/
theorem validInRange_iff (s : State) :
    s.ValidInRange ↔ (∀ i, flagAt s.stv i = true → i < s.nb.toNat) ∧ (∀ i, flagAt s.keyv i = true → i < s.nk.toNat) ∧
      (∀ i, flagAt s.auxv i = true → i < s.nb.toNat) ∧ (s.ktv = true → s.ctx = true) ∧
      ∀ r, flagAt s.rkv r = true → s.ctx = true ∧ r ≤ s.nr.toNat := by
  unfold State.ValidInRange
  rw [forall_fin_iff_flagAt s.stv (· < s.nb.toNat), forall_fin_iff_flagAt s.keyv (· < s.nk.toNat),
    forall_fin_iff_flagAt s.auxv (· < s.nb.toNat),
    forall_fin_iff_flagAt s.rkv (fun r => s.ctx = true ∧ r ≤ s.nr.toNat)]

/-- A word loaded in range keeps the valid bits of its file in range. -/
theorem lt_of_flagAt_setIfInBounds {n w bound : Nat} {v : Vector Bool n} (h : ∀ i, flagAt v i = true → i < bound)
    (hw : w < bound) (i : Nat) (hi : flagAt (v.setIfInBounds w true) i = true) : i < bound := by
  rw [flagAt_setIfInBounds] at hi
  split at hi
  · next new => exact new.1 ▸ hw
  · exact h i hi

/-- The valid bits of the words that CREATE zeroes (R231). -/
theorem flagAt_zeroSt (n : Nat) (s : State) (i : Nat) :
    flagAt (zeroSt n s).stv i = (decide (i < n ∧ i < 8) || flagAt s.stv i) := by
  rcases Nat.lt_or_ge i 8 with hi | hi
  · simp [flagAt_of_lt _ hi, hi]
  · simp [flagAt_of_ge _ hi, Nat.not_lt.mpr hi]

/-- An entry of RKV that writing round keys leaves valid was listed or was valid before. -/
theorem mem_or_of_flagAt_writeRks {keys : List (Nat × Block)} {s : State} {r : Nat}
    (h : flagAt (writeRks keys s).rkv r = true) : (∃ e ∈ keys, e.1 = r) ∨ flagAt s.rkv r = true := by
  rcases Nat.lt_or_ge r 19 with hr | hr
  · simpa [flagAt_writeRks keys s r hr] using h
  · rw [flagAt_of_ge _ hr] at h
    cases h

section ValidBits

variable {s : State} (h : s.ValidInRange)
include h

theorem validInRange_loadSt {w : Nat} (v : Word) (hw : w < s.nb.toNat) : (loadSt w v s).ValidInRange := by
  rw [validInRange_iff] at h ⊢
  obtain ⟨st, key, aux, kt, rk⟩ := h
  exact ⟨lt_of_flagAt_setIfInBounds st hw, key, aux, kt, rk⟩

theorem validInRange_loadKey {w : Nat} (v : Word) (hw : w < s.nk.toNat) : (loadKey w v s).ValidInRange := by
  rw [validInRange_iff] at h ⊢
  obtain ⟨st, key, aux, kt, rk⟩ := h
  exact ⟨st, lt_of_flagAt_setIfInBounds key hw, aux, kt, rk⟩

theorem validInRange_loadAux {w : Nat} (v : Word) (hw : w < s.nb.toNat) : (loadAux w v s).ValidInRange := by
  rw [validInRange_iff] at h ⊢
  obtain ⟨st, key, aux, kt, rk⟩ := h
  exact ⟨st, key, lt_of_flagAt_setIfInBounds aux hw, kt, rk⟩

theorem validInRange_invalidateSt : (invalidateSt s).ValidInRange := by
  rw [validInRange_iff] at h ⊢
  obtain ⟨st, key, aux, kt, rk⟩ := h
  exact ⟨by simp, key, aux, kt, rk⟩

theorem validInRange_invalidateKt : (invalidateKt s).ValidInRange := by
  rw [validInRange_iff] at h ⊢
  obtain ⟨st, key, aux, kt, rk⟩ := h
  exact ⟨st, key, aux, by simp, rk⟩

theorem validInRange_invalidateRk : (invalidateRk s).ValidInRange := by
  rw [validInRange_iff] at h ⊢
  obtain ⟨st, key, aux, kt, rk⟩ := h
  exact ⟨st, key, aux, kt, by simp⟩

theorem validInRange_writeKt (b : Block) (hc : s.ctx = true) : (writeKt b s).ValidInRange := by
  rw [validInRange_iff] at h ⊢
  obtain ⟨st, key, aux, -, rk⟩ := h
  exact ⟨st, key, aux, fun _ => hc, rk⟩

theorem validInRange_writeRks {keys : List (Nat × Block)} (hc : s.ctx = true) (hr : ∀ e ∈ keys, e.1 ≤ s.nr.toNat) :
    (writeRks keys s).ValidInRange := by
  rw [validInRange_iff] at h ⊢
  obtain ⟨st, key, aux, kt, rk⟩ := h
  simp only [writeRks_stv, writeRks_keyv, writeRks_auxv, writeRks_ktv, writeRks_ctx, writeRks_nb, writeRks_nk,
    writeRks_nr]
  refine ⟨st, key, aux, kt, fun r valid => ?_⟩
  obtain ⟨e, he, rfl⟩ | before := mem_or_of_flagAt_writeRks valid
  · exact ⟨hc, hr e he⟩
  · exact rk r before

end ValidBits

/-- Without a context no bit is valid. -/
theorem validInRange_destroyContext (s : State) : (destroyContext s).ValidInRange := by
  rw [validInRange_iff]
  simp [destroyContext, invalidateAll]

/-- A new context has the words of ST valid that CREATE zeroes. -/
theorem validInRange_createContext (nb nk : BitVec 4) (nr : BitVec 5) (s : State) :
    (createContext nb nk nr s).ValidInRange := by
  rw [validInRange_iff]
  refine ⟨fun i hi => ?_, ?_⟩
  · rw [createContext, flagAt_zeroSt] at hi
    simp only [setConfig_stv, invalidateAll, invalidateRk_stv, invalidateKt_stv, invalidateAux_stv, invalidateKey_stv,
      invalidateSt_stv, flagAt_replicate_false, Bool.or_false, decide_eq_true_eq] at hi
    exact hi.1
  · simp [createContext, invalidateAll]

/-! ### Effects -/

/-- A command that needs a context executes in one. -/
theorem ctx_of_executes {i : Instr} {s : State} (hx : executes i s = true) (hi : needsNoContext i = false) :
    s.ctx = true := by
  obtain ⟨-, -, hc, -⟩ := (executes_iff i s).mp hx
  simpa [hi] using hc

/-- A command that executes has its indices in range. -/
theorem indicesInRange_of_executes {i : Instr} {s : State} (hx : executes i s = true) :
    indicesInRange s i = true := by
  obtain ⟨-, -, -, hr, -⟩ := (executes_iff i s).mp hx
  exact hr

/-- A command that executes finds the words it reads valid. -/
theorem operandsWritten_of_executes {i : Instr} {s : State} (hx : executes i s = true) :
    operandsWritten s i = true := by
  obtain ⟨-, -, -, -, hw⟩ := (executes_iff i s).mp hx
  exact hw

/-- Every index of EvenKeys is at most `nr`. -/
theorem le_of_mem_evenKeys {T : Config.Tables} {nb nk nr : Nat} {key kt : Block} (hnr : nr % 2 = 0) :
    ∀ e ∈ evenKeys T nb nk nr key kt, e.1 ≤ nr :=
  fun _ he => ((mem_map_fst_evenKeys T nb nk key kt hnr _).mp (List.mem_map_of_mem he)).2

/-- Every index of OddKeys is at most `nr`. -/
theorem le_of_mem_oddKeys {nb nr : Nat} {rk : Nat → Block} : ∀ e ∈ oddKeys nb nr rk, e.1 ≤ nr := by
  intro e he
  obtain ⟨m, hm, rfl⟩ := (mem_oddKeys nb nr rk e).mp he
  simp only
  omega

theorem effect_keeps_validInRange {i : Instr} {s : State} (hx : executes i s = true) (hl : s.LegalConfig)
    (h : s.ValidInRange) : (effect i s).ValidInRange := by
  have inContext := ctx_of_executes hx
  have inRange := indicesInRange_of_executes hx
  have even (hc : s.ctx = true) : s.nr.toNat % 2 = 0 := by
    obtain ⟨-, -, -, hnr⟩ := bounds_of_mem_legalRows (hl.1 hc)
    exact hnr
  cases i with
  | create ksz bsz =>
    obtain ⟨nb, nk, nr, -, hcreate⟩ := effect_create hx
    rw [hcreate]
    exact validInRange_createContext nb nk nr s
  | destroy => exact validInRange_destroyContext s
  | ldst w => exact validInRange_loadSt h s.din (of_decide_eq_true inRange)
  | ldkey w => exact validInRange_invalidateKt (validInRange_loadKey h s.din (of_decide_eq_true inRange))
  | ldaux w => exact validInRange_loadAux h s.din (of_decide_eq_true inRange)
  | ktgen => exact validInRange_invalidateSt (validInRange_writeKt h _ (inContext rfl))
  | evenkeys =>
    have hc := inContext rfl
    exact validInRange_invalidateSt
      (validInRange_writeRks (validInRange_invalidateRk h) hc (le_of_mem_evenKeys (even hc)))
  | oddkeys => exact validInRange_writeRks h (inContext rfl) le_of_mem_oddKeys
  | expand =>
    have hc := inContext rfl
    have evenWritten := validInRange_writeRks (validInRange_invalidateRk (validInRange_writeKt h s.ktOfKey hc)) hc
      (le_of_mem_evenKeys (even hc) : ∀ e ∈ s.evenKeysWith s.ktOfKey, _)
    exact validInRange_invalidateSt (validInRange_writeRks evenWritten (by simpa using hc)
      (by simpa using le_of_mem_oddKeys))
  | _ => exact h

/-- Every effect but that of CLRERR keeps the error fields. -/
theorem effect_errorFields {i : Instr} (s : State) (hi : i ≠ .clrerr) :
    ((effect i s).err, (effect i s).ecode, (effect i s).eopc) = (s.err, s.ecode, s.eopc) := by
  cases i with
  | clrerr => exact absurd rfl hi
  | create ksz bsz => cases hp : paramRow bsz ksz <;> simp [effect, hp, createContext, invalidateAll]
  | evenkeys => simp [effect, evenkeysEffect]
  | oddkeys => simp [effect, oddkeysEffect]
  | expand => simp [effect, expandEffect]
  | _ => rfl

theorem effect_keeps_errorFieldsAgree (i : Instr) {s : State} (h : s.ErrorFieldsAgree) :
    (effect i s).ErrorFieldsAgree := by
  by_cases hi : i = .clrerr
  · subst hi
    exact ⟨fun _ => ⟨rfl, rfl⟩, fun he => Bool.noConfusion he⟩
  · have frame := effect_errorFields s hi
    simp only [Prod.mk.injEq] at frame
    obtain ⟨err, ecode, eopc⟩ := frame
    rwa [State.ErrorFieldsAgree, err, ecode, eopc]

theorem effect_keeps_inv {i : Instr} {s : State} (hx : executes i s = true) (h : s.Inv) : (effect i s).Inv := by
  obtain ⟨config, valid, error⟩ := h
  obtain ⟨-, -, -, legal⟩ := configurationIsWrittenByCreateAndDestroyOnly i s _ (exec_of_executes hx)
  exact ⟨legal config, effect_keeps_validInRange hx config valid, effect_keeps_errorFieldsAgree i error⟩

/-! ### The step -/

/-- Every code that is raised is one of R150. -/
theorem bits_mem (code : ErrorCode) : code.bits ∈ [1#4, 3#4, 4#4, 5#4, 6#4] := by
  cases code <;> decide

theorem errorEntry_keeps_inv (code : ErrorCode) {s : State} (h : s.Inv) : (errorEntry code s).Inv := by
  obtain ⟨config, valid, -⟩ := h
  exact ⟨config, valid, fun he => Bool.noConfusion he, fun _ => bits_mem code⟩

theorem resetCore_inv (s : State) : (resetCore s).Inv :=
  ⟨legalConfig_destroyContext s, validInRange_destroyContext s, fun _ => ⟨rfl, rfl⟩, fun he => Bool.noConfusion he⟩

/-- What the port, a reset, an error entry and the effect of every command keep, every step keeps. -/
theorem step_keeps {P : State → Prop} (port : ∀ s c d rest, P s → P (s.withPort c d rest))
    (reset : ∀ s, P (resetCore s)) (error : ∀ code s, P s → P (errorEntry code s))
    (command : ∀ i s, executes i s = true → P s → P (effect i s)) {s t : State} (h : P s) (ht : step s = .next t) :
    P t := by
  obtain ⟨-, wait⟩ | ⟨rest, -, clear⟩ | ⟨c, d, rest, i, -, -, run⟩ | ⟨c, d, rest, e, -, -, reject⟩ := step_cases s
  · cases wait.symm.trans ht
    exact h
  · cases clear.symm.trans ht
    exact reset _
  · have onPort := port s c d rest h
    obtain ⟨hx, rfl⟩ | ⟨-, -, rfl⟩ | ⟨-, -, code, -, rfl⟩ := exec_cases (run.symm.trans ht)
    · exact command i _ hx onPort
    · exact onPort
    · exact error code _ onPort
  · have onPort := port s c d rest h
    rw [reject, illegalCommand, unlessError_eq_next] at ht
    obtain ⟨-, rfl⟩ | ⟨-, entry⟩ := ht
    · exact onPort
    · cases entry
      exact error .illegalCmd _ onPort

/-- Settles O16: a reset establishes the invariant, and every effect and error entry keeps it. -/
theorem everyStepKeepsTheInvariant : Obligations.EveryStepKeepsTheInvariant :=
  fun _ _ h ht => step_keeps (P := State.Inv) (fun _ _ _ _ h => h) resetCore_inv
    (fun code _ => errorEntry_keeps_inv code) (fun _ _ => effect_keeps_inv) h ht

end Sys2Proof.Machine
end

section
/-! PROOFS. A valid Kt is the Kt of the key in KEY (spec/10_state.md rule R22): KTGEN and EXPAND make it so, and every
command that changes KEY or the parameters clears KTV. -/

namespace Sys2Proof.Machine

/-- Kt of a loaded context has `nb` words (R130). -/
theorem length_ktOfKey {s : State} (h : (s.nb, s.nk, s.nr) ∈ legalRows) : s.ktOfKey.length = s.nb.toNat := by
  obtain ⟨pos, le, small, -⟩ := bounds_of_mem_legalRows h
  exact length_ktGen tables _ _ _ pos (by simp [State.keyBlock, small]) le

/-- A block of `nb` words written to KT is read back. -/
theorem ktBlock_writeKt {b : Block} {s : State} (hb : b.length = s.nb.toNat) (h8 : s.nb.toNat ≤ 8) :
    (writeKt b s).ktBlock = b := by
  rw [State.ktBlock, writeKt_kt, writeKt_nb, ← hb]
  exact readBlock_writeBlock s.kt b (hb ▸ h8)

/-- Whether Kt belongs to the key is a matter of KT, KEY, their valid bits and the parameters. -/
theorem ktBelongsToKey_congr {s t : State} (hkt : t.kt = s.kt) (hktv : t.ktv = s.ktv) (hkey : t.key = s.key)
    (hkeyv : t.keyv = s.keyv) (hnb : t.nb = s.nb) (hnk : t.nk = s.nk) (h : s.KtBelongsToKey) : t.KtBelongsToKey := by
  rwa [State.KtBelongsToKey, State.ktBlock, State.keyBlock, hkt, hktv, hkey, hkeyv, hnb, hnk]

/-- An invalid Kt belongs to any key. -/
theorem ktBelongsToKey_of_invalid {s : State} (h : s.ktv = false) : s.KtBelongsToKey := by
  intro valid
  rw [h] at valid
  cases valid

/-- Kt as KTGEN writes it belongs to the key it was made from (R131). -/
theorem ktBelongsToKey_writeKt {s : State} (hrow : (s.nb, s.nk, s.nr) ∈ legalRows)
    (hkey : allValid s.keyv s.nk.toNat = true) : (writeKt s.ktOfKey s).KtBelongsToKey := by
  obtain ⟨-, le, small, -⟩ := bounds_of_mem_legalRows hrow
  exact fun _ => ⟨hkey, ktBlock_writeKt (length_ktOfKey hrow) (le.trans small)⟩

theorem effect_keeps_ktBelongsToKey {i : Instr} {s : State} (hx : executes i s = true) (hl : s.LegalConfig)
    (h : s.KtBelongsToKey) : (effect i s).KtBelongsToKey := by
  have row (hi : needsNoContext i = false) := hl.1 (ctx_of_executes hx hi)
  have written := operandsWritten_of_executes hx
  cases i with
  | create ksz bsz =>
    obtain ⟨nb, nk, nr, -, hcreate⟩ := effect_create hx
    rw [hcreate]
    exact ktBelongsToKey_of_invalid rfl
  | destroy | ldkey => exact ktBelongsToKey_of_invalid rfl
  | ktgen =>
    have made := ktBelongsToKey_writeKt (row rfl) written
    refine ktBelongsToKey_congr ?_ ?_ ?_ ?_ ?_ ?_ made <;> simp [effect, ktgenEffect]
  | expand =>
    have made := ktBelongsToKey_writeKt (row rfl) written
    refine ktBelongsToKey_congr ?_ ?_ ?_ ?_ ?_ ?_ made <;> simp [effect, expandEffect]
  | evenkeys => refine ktBelongsToKey_congr ?_ ?_ ?_ ?_ ?_ ?_ h <;> simp [effect, evenkeysEffect]
  | oddkeys => refine ktBelongsToKey_congr ?_ ?_ ?_ ?_ ?_ ?_ h <;> simp [effect, oddkeysEffect]
  | _ => exact h

/-- Settles O17: with the invariant of O16, for the configuration is what gives Kt its length. -/
theorem everyStepKeepsKtWithItsKey : Obligations.EveryStepKeepsKtWithItsKey := by
  intro s t hinv hkt ht
  have both : t.Inv ∧ t.KtBelongsToKey :=
    step_keeps (P := fun u => u.Inv ∧ u.KtBelongsToKey) (fun _ _ _ _ h => h)
      (fun u => ⟨resetCore_inv u, ktBelongsToKey_of_invalid rfl⟩)
      (fun code _ ⟨inv, kt⟩ => ⟨errorEntry_keeps_inv code inv, kt⟩)
      (fun _ _ hx ⟨inv, kt⟩ => ⟨effect_keeps_inv hx inv, effect_keeps_ktBelongsToKey hx inv.1 kt⟩) ⟨hinv, hkt⟩ ht
  exact both.2

end Sys2Proof.Machine
end

section
/-! PROOFS. The contents of invalid words cannot be observed (spec/10_state.md rule R18). Two states that no command can
tell apart pass the same checks; what an executing command reads is valid, so it is the same in both; and every
register operation keeps them alike, the free values of a loss of contents included. -/

namespace Sys2Proof.Machine

/-- `State.Agree`, field by field under names of their own. -/
structure Alike (s t : State) : Prop where
  stv : s.stv = t.stv
  keyv : s.keyv = t.keyv
  auxv : s.auxv = t.auxv
  ktv : s.ktv = t.ktv
  rkv : s.rkv = t.rkv
  dout : s.dout = t.dout
  ctx : s.ctx = t.ctx
  nb : s.nb = t.nb
  nk : s.nk = t.nk
  nr : s.nr = t.nr
  err : s.err = t.err
  ecode : s.ecode = t.ecode
  eopc : s.eopc = t.eopc
  cmd : s.cmd = t.cmd
  din : s.din = t.din
  pending : s.pending = t.pending
  st : ∀ i, flagAt s.stv i = true → wordAt s.st i = wordAt t.st i
  key : ∀ i, flagAt s.keyv i = true → wordAt s.key i = wordAt t.key i
  aux : ∀ i, flagAt s.auxv i = true → wordAt s.aux i = wordAt t.aux i
  kt : s.ktv = true → s.ktBlock = t.ktBlock
  rk : ∀ r, flagAt s.rkv r = true → s.roundKey r = t.roundKey r

theorem agree_iff_alike (s t : State) : s.Agree t ↔ Alike s t := by
  constructor
  · rintro ⟨⟨stv, keyv, auxv, ktv, rkv⟩, ⟨dout, ctx, nb, nk, nr⟩, ⟨err, ecode, eopc⟩, ⟨cmd, din, pending⟩, st, key, aux,
      kt, rk⟩
    exact ⟨stv, keyv, auxv, ktv, rkv, dout, ctx, nb, nk, nr, err, ecode, eopc, cmd, din, pending, st, key, aux, kt, rk⟩
  · intro h
    exact ⟨⟨h.stv, h.keyv, h.auxv, h.ktv, h.rkv⟩, ⟨h.dout, h.ctx, h.nb, h.nk, h.nr⟩, ⟨h.err, h.ecode, h.eopc⟩,
      ⟨h.cmd, h.din, h.pending⟩, h.st, h.key, h.aux, h.kt, h.rk⟩

/-! ### Blocks -/

/-- A block depends on the words it reads alone. -/
theorem readBlock_congr {v v' : Vector Word 8} {n : Nat} (h : ∀ i < n, wordAt v i = wordAt v' i) :
    readBlock v n = readBlock v' n := by
  refine List.ext_getElem (by simp) fun i hi hi' => ?_
  have hin : i < n := by
    rw [length_readBlock] at hi
    omega
  rw [← List.getD_eq_getElem _ 0#64 hi, ← List.getD_eq_getElem _ 0#64 hi', getD_readBlock _ hin, getD_readBlock _ hin]
  exact h i hin

/-- Words that are alike before a block is written are alike after it. -/
theorem wordAt_writeBlock_congr {v v' : Vector Word 8} (b : Block) {i : Nat} (h : wordAt v i = wordAt v' i) :
    wordAt (writeBlock v b) i = wordAt (writeBlock v' b) i := by
  rcases Nat.lt_or_ge i 8 with hi | hi
  · rw [wordAt_writeBlock _ _ hi, wordAt_writeBlock _ _ hi, h]
  · rw [wordAt_of_ge _ hi, wordAt_of_ge _ hi]

theorem wordAt_setIfInBounds_congr {v v' : Vector Word 8} {flags : Vector Bool 8} (w : Nat) (x : Word)
    (h : ∀ i, flagAt flags i = true → wordAt v i = wordAt v' i) (i : Nat)
    (hi : flagAt (flags.setIfInBounds w true) i = true) :
    wordAt (v.setIfInBounds w x) i = wordAt (v'.setIfInBounds w x) i := by
  rw [flagAt_setIfInBounds] at hi
  rw [wordAt_setIfInBounds, wordAt_setIfInBounds]
  split_ifs at hi ⊢
  · rfl
  · exact h i hi

/-- Round key `r'` after round key `r` of `nb` words is written. -/
theorem roundKey_writeRk (r : Nat) {r' : Nat} {b : Block} {s : State} (hr : r' < 19) (hb : b.length = s.nb.toNat)
    (h8 : s.nb.toNat ≤ 8) : (writeRk r b s).roundKey r' = if r' = r then b else s.roundKey r' := by
  rw [State.roundKey, rkEntry_writeRk _ _ _ _ hr, writeRk_nb]
  split_ifs
  · rw [← hb]
    exact readBlock_writeBlock _ b (hb ▸ h8)
  · rfl

/-- Encipher reads the round keys `0..nr` (R114). -/
theorem encipher_congr (T : Config.Tables) {rk rk' : Nat → Block} {nr : Nat} (p : Block) (h : ∀ r ≤ nr, rk r = rk' r) :
    encipher T rk nr p = encipher T rk' nr p := by
  have inner : ∀ (acc : Block), ∀ r ∈ innerRounds nr,
      xorW (encRound T acc) (rk r) = xorW (encRound T acc) (rk' r) := by
    intro acc r hr
    rw [innerRounds, List.mem_range'_1] at hr
    rw [h r (by omega)]
  simp only [encipher, h 0 (Nat.zero_le nr), h nr le_rfl, List.foldl_ext _ _ _ inner]

/-- Decipher reads the round keys `0..nr` (R115). -/
theorem decipher_congr (T : Config.Tables) {rk rk' : Nat → Block} {nr : Nat} (c : Block) (h : ∀ r ≤ nr, rk r = rk' r) :
    decipher T rk nr c = decipher T rk' nr c := by
  have inner : ∀ (acc : Block), ∀ r ∈ (innerRounds nr).reverse,
      xorW (decRound T acc) (rk r) = xorW (decRound T acc) (rk' r) := by
    intro acc r hr
    rw [List.mem_reverse, innerRounds, List.mem_range'_1] at hr
    rw [h r (by omega)]
  simp only [decipher, h 0 (Nat.zero_le nr), h nr le_rfl, List.foldl_ext _ _ _ inner]

/-- OddKeys reads the even round keys below `nr` (R134). -/
theorem oddKeys_congr (nb : Nat) {nr : Nat} {rk rk' : Nat → Block} (h : ∀ m < nr / 2, rk (2 * m) = rk' (2 * m)) :
    oddKeys nb nr rk = oddKeys nb nr rk' := by
  simp only [oddKeys, oddIndices, List.map_map]
  refine List.map_congr_left fun m hm => ?_
  simp [h m (List.mem_range.mp hm)]

/-- Every odd round key has `nb` words, where the even ones have. -/
theorem length_of_mem_oddKeys {nb nr : Nat} {rk : Nat → Block} (h : ∀ m < nr / 2, (rk (2 * m)).length = nb) :
    ∀ e ∈ oddKeys nb nr rk, e.2.length = nb := by
  intro e he
  obtain ⟨m, hm, rfl⟩ := (mem_oddKeys nb nr rk e).mp he
  rw [length_oddKey, h m hm]

/-- The blocks of a context have `nb` words, and its key `nk`. -/
theorem length_ktBlock {s : State} (h : (s.nb, s.nk, s.nr) ∈ legalRows) : s.ktBlock.length = s.nb.toNat := by
  obtain ⟨-, le, small, -⟩ := bounds_of_mem_legalRows h
  simp [State.ktBlock, le.trans small]

theorem length_roundKey {s : State} (h : (s.nb, s.nk, s.nr) ∈ legalRows) (r : Nat) :
    (s.roundKey r).length = s.nb.toNat := by
  obtain ⟨-, le, small, -⟩ := bounds_of_mem_legalRows h
  simp [State.roundKey, le.trans small]

theorem length_of_mem_evenKeysWith {s : State} {kt : Block} (h : (s.nb, s.nk, s.nr) ∈ legalRows)
    (hkt : kt.length = s.nb.toNat) : ∀ e ∈ s.evenKeysWith kt, e.2.length = s.nb.toNat := by
  obtain ⟨-, le, small, -⟩ := bounds_of_mem_legalRows h
  exact length_of_mem_evenKeys tables _ (by simp [State.keyBlock, small]) hkt le

/-- A command that puts a word on DOUT does nothing else. -/
theorem effect_of_readValue {i : Instr} {s : State} {v : Word} (h : readValue i s = some v) :
    effect i s = setDout v s := by
  cases i with
  | rdstat | rdst | rdrk | rdkt | gfmul | sbox | isbox =>
    cases h
    rfl
  | _ => cases h

namespace Alike

variable {s t : State} (h : Alike s t)
include h

/-! ### What is read alike -/

theorem stBlock_eq (hv : allValid s.stv s.nb.toNat = true) : s.stBlock = t.stBlock := by
  rw [State.stBlock, State.stBlock, ← h.nb]
  exact readBlock_congr fun i hi => h.st i ((allValid_iff _ _).mp hv i hi)

theorem keyBlock_eq (hv : allValid s.keyv s.nk.toNat = true) : s.keyBlock = t.keyBlock := by
  rw [State.keyBlock, State.keyBlock, ← h.nk]
  exact readBlock_congr fun i hi => h.key i ((allValid_iff _ _).mp hv i hi)

theorem auxBlock_eq (hv : allValid s.auxv s.nb.toNat = true) : s.auxBlock = t.auxBlock := by
  rw [State.auxBlock, State.auxBlock, ← h.nb]
  exact readBlock_congr fun i hi => h.aux i ((allValid_iff _ _).mp hv i hi)

theorem ktOfKey_eq (hv : allValid s.keyv s.nk.toNat = true) : s.ktOfKey = t.ktOfKey := by
  rw [State.ktOfKey, State.ktOfKey, h.keyBlock_eq hv, h.nb, h.nk]

theorem evenKeysWith_eq (hv : allValid s.keyv s.nk.toNat = true) (kt : Block) : s.evenKeysWith kt = t.evenKeysWith kt := by
  rw [State.evenKeysWith, State.evenKeysWith, h.keyBlock_eq hv, h.nb, h.nk, h.nr]

theorem roundKeys_eq (hv : s.rkComplete = true) : ∀ r ≤ s.nr.toNat, s.roundKey r = t.roundKey r :=
  fun r hr => h.rk r ((allValid_iff _ _).mp hv r (Nat.lt_succ_of_le hr))

/-- The status word (R27) shows flags and fields only. -/
theorem status_eq : s.status = t.status := by
  simp only [State.status, State.keyed, State.rkComplete, h.eopc, h.auxv, h.keyv, h.stv, h.nr, h.nk, h.nb, h.ecode, h.ktv,
    h.err, h.rkv, h.ctx]

/-- The checks of R152 read flags and fields only. -/
theorem errorOf_eq (i : Instr) : errorOf i s = errorOf i t := by
  have indices : indicesInRange s i = indicesInRange t i := by
    unfold indicesInRange
    rw [h.nb, h.nk, h.nr]
  have operands : operandsWritten s i = operandsWritten t i := by
    unfold operandsWritten
    rw [h.stv, h.keyv, h.auxv, h.ktv, h.rkv, h.nb, h.nk, h.nr]
  rw [errorOf, errorOf, indices, operands, h.ctx]

theorem executes_eq (i : Instr) : executes i s = executes i t := by
  rw [executes, executes, h.errorOf_eq, h.err]

/-- What a command that executes reads for DOUT is valid. -/
theorem readValue_eq {i : Instr} (hx : executes i s = true) : readValue i s = readValue i t := by
  have inRange := indicesInRange_of_executes hx
  have written := operandsWritten_of_executes hx
  cases i with
  | rdstat => exact congrArg some h.status_eq
  | rdst w => exact congrArg some (h.st w written)
  | rdrk r w =>
    simp only [indicesInRange, Bool.and_eq_true, decide_eq_true_eq] at inRange
    have word := congrArg (·.getD w 0#64) (h.rk r written)
    simpa only [State.roundKey, ← h.nb, getD_readBlock _ inRange.2, readValue, Option.some.injEq] using word
  | rdkt w =>
    have word := congrArg (·.getD w 0#64) (h.kt written)
    simpa only [State.ktBlock, ← h.nb, getD_readBlock _ (of_decide_eq_true inRange), readValue, Option.some.injEq]
      using word
  | sbox | isbox => rw [readValue, readValue, State.dinByte, State.dinByte, h.din]
  | _ => rfl

/-! ### The register operations -/

theorem errorEntry (code : ErrorCode) : Alike (errorEntry code s) (errorEntry code t) :=
  { h with err := rfl, ecode := rfl, eopc := congrArg opcField h.cmd }

theorem clearError : Alike (clearError s) (clearError t) := { h with err := rfl, ecode := rfl, eopc := rfl }

theorem setDout (v : Word) : Alike (setDout v s) (setDout v t) := { h with dout := rfl }

theorem loadSt (w : Nat) (v : Word) : Alike (loadSt w v s) (loadSt w v t) :=
  { h with stv := congrArg (·.setIfInBounds w true) h.stv, st := wordAt_setIfInBounds_congr w v h.st }

theorem loadKey (w : Nat) (v : Word) : Alike (loadKey w v s) (loadKey w v t) :=
  { h with keyv := congrArg (·.setIfInBounds w true) h.keyv, key := wordAt_setIfInBounds_congr w v h.key }

theorem loadAux (w : Nat) (v : Word) : Alike (loadAux w v s) (loadAux w v t) :=
  { h with auxv := congrArg (·.setIfInBounds w true) h.auxv, aux := wordAt_setIfInBounds_congr w v h.aux }

theorem writeSt (b : Block) : Alike (writeSt b s) (writeSt b t) :=
  { h with st := fun i hi => wordAt_writeBlock_congr b (h.st i hi) }

theorem writeKt {b : Block} (hb : b.length = s.nb.toNat) (h8 : s.nb.toNat ≤ 8) : Alike (writeKt b s) (writeKt b t) :=
  { h with ktv := rfl, kt := fun _ => by rw [ktBlock_writeKt hb h8, ktBlock_writeKt (h.nb ▸ hb) (h.nb ▸ h8)] }

theorem writeRk (r : Nat) {b : Block} (hb : b.length = s.nb.toNat) (h8 : s.nb.toNat ≤ 8) :
    Alike (writeRk r b s) (writeRk r b t) :=
  { h with
    rkv := congrArg (·.setIfInBounds r true) h.rkv
    rk := fun r' hr' => by
      have hr : r' < 19 := by
        by_contra hge
        rw [flagAt_of_ge _ (Nat.not_lt.mp hge)] at hr'
        cases hr'
      rw [roundKey_writeRk r hr hb h8, roundKey_writeRk r hr (h.nb ▸ hb) (h.nb ▸ h8)]
      split_ifs with same
      · rfl
      · rw [writeRk_rkv, flagAt_setIfInBounds, if_neg (fun both => same both.1)] at hr'
        exact h.rk r' hr' }

theorem invalidateSt : Alike (invalidateSt s) (invalidateSt t) :=
  { h with stv := rfl, st := by simp }

theorem invalidateKey : Alike (invalidateKey s) (invalidateKey t) :=
  { h with keyv := rfl, key := by simp }

theorem invalidateAux : Alike (invalidateAux s) (invalidateAux t) :=
  { h with auxv := rfl, aux := by simp }

theorem invalidateKt : Alike (invalidateKt s) (invalidateKt t) :=
  { h with ktv := rfl, kt := by simp }

theorem invalidateRk : Alike (invalidateRk s) (invalidateRk t) :=
  { h with rkv := rfl, rk := by simp }

theorem invalidateAll : Alike (invalidateAll s) (invalidateAll t) :=
  h.invalidateSt.invalidateKey.invalidateAux.invalidateKt.invalidateRk

/-- New parameters give KT and RK other lengths, so neither may be valid. -/
theorem setConfig (ctx : Bool) (nb nk : BitVec 4) (nr : BitVec 5) (hkt : s.ktv = false)
    (hrk : ∀ r, flagAt s.rkv r = false) : Alike (setConfig ctx nb nk nr s) (setConfig ctx nb nk nr t) :=
  { h with ctx := rfl, nb := rfl, nk := rfl, nr := rfl, kt := by simp [hkt], rk := by simp [hrk] }

theorem zeroSt (n : Nat) : Alike (zeroSt n s) (zeroSt n t) :=
  { h with
    stv := by rw [zeroSt_stv, zeroSt_stv, h.stv]
    st := fun i hi => by
      rw [flagAt_zeroSt, Bool.or_eq_true, decide_eq_true_eq] at hi
      rw [zeroSt_st, zeroSt_st]
      obtain ⟨hn, h8⟩ | before := hi
      · simp [wordAt_writeBlock _ _ h8, hn]
      · exact wordAt_writeBlock_congr _ (h.st i before) }

theorem destroyContext : Alike (destroyContext s) (destroyContext t) :=
  h.invalidateAll.setConfig false 0#4 0#4 0#5 rfl (flagAt_replicate_false 19)

theorem createContext (nb nk : BitVec 4) (nr : BitVec 5) : Alike (createContext nb nk nr s) (createContext nb nk nr t) :=
  (h.invalidateAll.setConfig true nb nk nr rfl (flagAt_replicate_false 19)).zeroSt nb.toNat

theorem resetCore : Alike (resetCore s) (resetCore t) := (h.destroyContext.clearError).setDout 0#64

theorem writeRks {keys : List (Nat × Block)} (hb : ∀ e ∈ keys, e.2.length = s.nb.toNat)
    (h8 : s.nb.toNat ≤ 8) : Alike (writeRks keys s) (writeRks keys t) := by
  induction keys generalizing s t with
  | nil => exact h
  | cons e es ih =>
    obtain ⟨first, rest⟩ := List.forall_mem_cons.mp hb
    exact ih (h.writeRk e.1 first h8) rest h8

/-! ### Effects -/

theorem ktgenEffect (hrow : (s.nb, s.nk, s.nr) ∈ legalRows) (hkey : allValid s.keyv s.nk.toNat = true) :
    Alike (ktgenEffect s) (ktgenEffect t) := by
  obtain ⟨-, le, small, -⟩ := bounds_of_mem_legalRows hrow
  rw [Machine.ktgenEffect, Machine.ktgenEffect, ← h.ktOfKey_eq hkey]
  exact (h.writeKt (length_ktOfKey hrow) (le.trans small)).invalidateSt

theorem evenkeysEffect (hrow : (s.nb, s.nk, s.nr) ∈ legalRows) (hkey : allValid s.keyv s.nk.toNat = true)
    (hkt : s.ktv = true) : Alike (evenkeysEffect s) (evenkeysEffect t) := by
  obtain ⟨-, le, small, -⟩ := bounds_of_mem_legalRows hrow
  rw [Machine.evenkeysEffect, Machine.evenkeysEffect, ← h.kt hkt, ← h.evenKeysWith_eq hkey]
  have lengths := length_of_mem_evenKeysWith hrow (length_ktBlock hrow)
  exact (h.invalidateRk.writeRks lengths (le.trans small)).invalidateSt

theorem oddkeysEffect (hrow : (s.nb, s.nk, s.nr) ∈ legalRows)
    (hrk : ∀ m < s.nr.toNat / 2, flagAt s.rkv (2 * m) = true) : Alike (oddkeysEffect s) (oddkeysEffect t) := by
  obtain ⟨-, le, small, -⟩ := bounds_of_mem_legalRows hrow
  rw [Machine.oddkeysEffect, Machine.oddkeysEffect, ← h.nb, ← h.nr, ← oddKeys_congr _ fun m hm => h.rk _ (hrk m hm)]
  exact h.writeRks (length_of_mem_oddKeys fun m _ => length_roundKey hrow _) (le.trans small)

theorem expandEffect (hrow : (s.nb, s.nk, s.nr) ∈ legalRows) (hkey : allValid s.keyv s.nk.toNat = true) :
    Alike (expandEffect s) (expandEffect t) := by
  obtain ⟨-, le, small, hnr⟩ := bounds_of_mem_legalRows hrow
  have small : s.nb.toNat ≤ 8 := le.trans small
  have ktLength := length_ktOfKey hrow
  have evenLength := length_of_mem_evenKeysWith hrow ktLength
  have oddLength := length_of_mem_oddKeys (rk := lookupKey (s.evenKeysWith s.ktOfKey)) fun m (hm : m < s.nr.toNat / 2) =>
    evenLength _ (mem_lookupKey ((mem_map_fst_evenKeys _ _ _ _ _ hnr (2 * m)).mpr ⟨by omega, by omega⟩))
  simp only [Machine.expandEffect, ← h.ktOfKey_eq hkey, ← h.evenKeysWith_eq hkey, ← h.nb, ← h.nr]
  have even := ((h.writeKt ktLength small).invalidateRk).writeRks evenLength small
  exact (even.writeRks (by simpa using oddLength) (by simpa using small)).invalidateSt

/-- A command that executes in states alike leaves them alike. -/
theorem effect {i : Instr} (hl : s.LegalConfig) (hx : executes i s = true) : Alike (effect i s) (effect i t) := by
  have row (hi : needsNoContext i = false) := hl.1 (ctx_of_executes hx hi)
  have written := operandsWritten_of_executes hx
  have read := h.readValue_eq hx
  cases i with
  | nop => exact h
  | create ksz bsz =>
    cases hp : paramRow bsz ksz with
    | none => simpa [Machine.effect, hp] using h
    | some row => simpa [Machine.effect, hp] using h.createContext row.1 row.2.1 row.2.2
  | destroy => exact h.destroyContext
  | clrerr => exact h.clearError
  | rdstat | rdst | rdrk | rdkt | gfmul | sbox | isbox =>
    rw [effect_of_readValue rfl, effect_of_readValue read.symm]
    exact h.setDout _
  | ldst w =>
    rw [Machine.effect, Machine.effect, ← h.din]
    exact h.loadSt w s.din
  | ldkey w =>
    rw [Machine.effect, Machine.effect, ← h.din]
    exact (h.loadKey w s.din).invalidateKt
  | ldaux w =>
    rw [Machine.effect, Machine.effect, ← h.din]
    exact h.loadAux w s.din
  | subb | isubb | shrow | ishrow | mixcol | imixcol | eround | dround =>
    rw [Machine.effect, Machine.effect, ← h.stBlock_eq written]
    exact h.writeSt _
  | addrk r | subrk r | xorrk r =>
    obtain ⟨st, rk⟩ := Bool.and_eq_true_iff.mp written
    rw [Machine.effect, Machine.effect, ← h.stBlock_eq st, ← h.rk r rk]
    exact h.writeSt _
  | addx | xorx =>
    obtain ⟨st, aux⟩ := Bool.and_eq_true_iff.mp written
    rw [Machine.effect, Machine.effect, ← h.stBlock_eq st, ← h.auxBlock_eq aux]
    exact h.writeSt _
  | ktgen => exact h.ktgenEffect (row rfl) written
  | evenkeys =>
    obtain ⟨key, kt⟩ := Bool.and_eq_true_iff.mp written
    exact h.evenkeysEffect (row rfl) key kt
  | oddkeys => exact h.oddkeysEffect (row rfl) (by simpa [operandsWritten] using written)
  | expand => exact h.expandEffect (row rfl) written
  | enc =>
    obtain ⟨st, rk⟩ := Bool.and_eq_true_iff.mp written
    rw [Machine.effect, Machine.effect, ← h.stBlock_eq st, ← h.nr, ← encipher_congr tables _ (h.roundKeys_eq rk)]
    exact h.writeSt _
  | dec =>
    obtain ⟨st, rk⟩ := Bool.and_eq_true_iff.mp written
    rw [Machine.effect, Machine.effect, ← h.stBlock_eq st, ← h.nr, ← decipher_congr tables _ (h.roundKeys_eq rk)]
    exact h.writeSt _

/-! ### Commands and steps -/

theorem exec {i : Instr} {s' : State} (hl : s.LegalConfig) (hs : exec i s = .next s') :
    ∃ t', exec i t = .next t' ∧ Alike s' t' := by
  obtain ⟨hx, rfl⟩ | ⟨hx, he, rfl⟩ | ⟨-, he, code, hc, rfl⟩ := exec_cases hs
  · exact ⟨_, exec_of_executes (h.executes_eq i ▸ hx), h.effect hl hx⟩
  · exact ⟨t, exec_of_ignored (h.executes_eq i ▸ hx) (h.err ▸ he), h⟩
  · exact ⟨_, exec_of_errorOf (h.err ▸ he) (h.errorOf_eq i ▸ hc), h.errorEntry code⟩

theorem illegalCommand {s' : State} (hs : illegalCommand s = .next s') :
    ∃ t', illegalCommand t = .next t' ∧ Alike s' t' := by
  rw [Machine.illegalCommand, unlessError_eq_next] at hs
  obtain ⟨he, rfl⟩ | ⟨he, entry⟩ := hs
  · exact ⟨t, unlessError_of_error _ (h.err ▸ he), h⟩
  · cases entry
    exact ⟨_, unlessError_of_clear _ (h.err ▸ he), h.errorEntry .illegalCmd⟩

/-- The words that a host event puts on the port are the same for both. -/
theorem withPort (c : CmdWord) (d : Word) (rest : List HostEvent) : Alike (s.withPort c d rest) (t.withPort c d rest) :=
  { h with cmd := rfl, din := rfl, pending := rfl }

theorem executePort {s' : State} (hl : s.LegalConfig) (hs : executePort s = .next s') :
    ∃ t', executePort t = .next t' ∧ Alike s' t' := by
  simp only [Machine.executePort, ← h.cmd] at hs ⊢
  cases hd : decode s.cmd with
  | ok i => exact h.exec hl (by simpa [hd] using hs)
  | error e => exact h.illegalCommand (by simpa [hd] using hs)

theorem step {s' : State} (hl : s.LegalConfig) (hs : step s = .next s') :
    ∃ t', step t = .next t' ∧ Alike s' t' := by
  cases hp : s.pending with
  | nil =>
    cases (step_of_nothing_pending hp).symm.trans hs
    exact ⟨t, step_of_nothing_pending (h.pending ▸ hp), h⟩
  | cons event rest =>
    cases event with
    | reset =>
      have taken : Alike { s with pending := rest } { t with pending := rest } := { h with pending := rfl }
      cases (step_of_reset hp).symm.trans hs
      exact ⟨_, step_of_reset (h.pending ▸ hp), taken.resetCore⟩
    | command c d =>
      rw [step_of_command hp] at hs
      rw [step_of_command (h.pending ▸ hp)]
      exact (h.withPort c d rest).executePort hl hs

end Alike

/-- Settles O19: one step leaves states alike that are alike, and states alike show the same DOUT and status word. -/
theorem unspecifiedContentsCannotBeObserved : Obligations.UnspecifiedContentsCannotBeObserved := by
  rintro s t s' ⟨config, -, -⟩ agree hs
  obtain ⟨t', ht, alike⟩ := ((agree_iff_alike s t).mp agree).step config hs
  exact ⟨t', ht, (agree_iff_alike s' t').mpr alike, alike.dout, alike.status_eq⟩

end Sys2Proof.Machine
end

section
/-! PROOFS. Reading has no side effect (spec/20_memory.md rule R37): no check and no reading command depends on DOUT,
and a command that faulted is ignored from then on. -/

namespace Sys2Proof.Machine

/-- Whether a command executes does not depend on DOUT. -/
@[simp] theorem executes_setDout (i : Instr) (v : Word) (s : State) : executes i (setDout v s) = executes i s := rfl

/-- No reading command reads DOUT, and RDSTAT does not show it (R27). -/
@[simp] theorem readValue_setDout (i : Instr) (v : Word) (s : State) :
    readValue i (setDout v s) = readValue i s := by
  cases i with
  | _ => rfl

/-- A command that reads and executes puts its word on DOUT, and executed again it puts the same word there. -/
theorem exec_setDout_of_readValue {i : Instr} {s : State} {v : Word} (hx : executes i s = true)
    (hv : readValue i s = some v) : exec i (setDout v s) = .next (setDout v s) := by
  have again : executes i (setDout v s) = true := by rw [executes_setDout, hx]
  have sameWord : readValue i (setDout v s) = some v := by rw [readValue_setDout, hv]
  rw [exec_of_executes again, effect_of_readValue sameWord]
  rfl

/-- The error entry does not mend what the command failed at, so the command meets ERR = 1 and is ignored (R154). -/
theorem exec_errorEntry_of_errorOf {i : Instr} {s : State} {code : ErrorCode} (hc : errorOf i s = some code) :
    exec i (errorEntry code s) = .next (errorEntry code s) := by
  have sameError : errorOf i (errorEntry code s) = some code := hc
  exact exec_of_ignored (by simp [executes, sameError]) rfl

/-- Settles O23: a reading command that executes, is ignored or faults answers the same state when it is repeated. -/
theorem readingHasNoSideEffect : Obligations.ReadingHasNoSideEffect := by
  intro i s t hr h
  obtain ⟨v, hv⟩ := Option.ne_none_iff_exists'.mp hr
  obtain ⟨hx, rfl⟩ | ⟨hx, he, rfl⟩ | ⟨hx, -, code, hc, rfl⟩ := exec_cases h
  · rw [effect_of_readValue hv]
    exact ⟨fun _ => rfl, _, exec_setDout_of_readValue hx hv, rfl⟩
  · exact ⟨fun _ => rfl, _, exec_of_ignored hx he, rfl⟩
  · exact ⟨fun ran => by simp [hx] at ran, _, exec_errorEntry_of_errorOf hc, rfl⟩

end Sys2Proof.Machine
end

section
/-! PROOFS. Command words as numbers (spec/30_encoding.md rules R201 and R202): the number in each field, the number that
each encoding writes, and the number that each mask leaves. What an encoding carries in its fields follows by
arithmetic. -/

namespace Sys2Proof

/-! ### Fields (R201) -/

/-- A field is the word shifted down to it, modulo the field's width. -/
theorem toNat_extractLsb' {n : Nat} (c : BitVec n) (start len : Nat) :
    (c.extractLsb' start len).toNat = c.toNat / 2 ^ start % 2 ^ len := by
  rw [BitVec.extractLsb'_toNat, Nat.shiftRight_eq_div_pow]

/-- A concatenation as a sum, the form in which `omega` can use it. -/
theorem toNat_append {m n : Nat} (x : BitVec m) (y : BitVec n) : (x ++ y).toNat = x.toNat * 2 ^ n + y.toNat := by
  rw [BitVec.toNat_append, ← Nat.shiftLeft_add_eq_or_of_lt y.isLt, Nat.shiftLeft_eq]

/-- The four codes name four sizes, so the named size keeps its code. -/
@[simp] theorem code_sizeOfCode (code : BitVec 2) : (sizeOfCode code).code = code := by
  revert code
  decide

@[simp] theorem sizeOfCode_code (size : SizeCode) : sizeOfCode size.code = size := by
  cases size with
  | _ => rfl

section FieldNumbers

variable (c : CmdWord)

/-- OPC is the top field: no bit lies above it, so nothing is cut off. -/
theorem toNat_opcField : (opcField c).toNat = c.toNat / 2 ^ 24 := by
  rw [opcField, toNat_extractLsb']
  omega

theorem toNat_code_kszField : (kszField c).code.toNat = c.toNat / 2 ^ 18 % 4 := by
  rw [kszField, code_sizeOfCode]
  exact toNat_extractLsb' c 18 2

theorem toNat_code_bszField : (bszField c).code.toNat = c.toNat / 2 ^ 16 % 4 := by
  rw [bszField, code_sizeOfCode]
  exact toNat_extractLsb' c 16 2

theorem toNat_aField : (aField c).toNat = c.toNat / 2 ^ 8 % 256 := toNat_extractLsb' c 8 8

theorem toNat_bField : (bField c).toNat = c.toNat % 256 := by
  rw [bField, toNat_extractLsb']
  omega

theorem rField_eq : rField c = c.toNat / 2 ^ 8 % 32 := toNat_extractLsb' c 8 5

theorem wField_eq : wField c = c.toNat % 8 := by
  rw [wField, toNat_extractLsb']
  omega

theorem val_tField : (tField c).val = c.toNat % 4 := by
  rw [tField, BitVec.val_toFin, toNat_extractLsb']
  omega

end FieldNumbers

/-- Settles O4: each field's number is the word divided down to the field, modulo the field's range. -/
theorem fieldsAreTheNumbersInTheirBits : Obligations.FieldsAreTheNumbersInTheirBits := fun c =>
  ⟨toNat_opcField c, toNat_code_kszField c, toNat_code_bszField c, toNat_aField c, rField_eq c, toNat_bField c,
    wField_eq c, val_tField c⟩

/-! ### The numbers that encodings write (R202) -/

section EncodedNumbers

variable (opc : Byte)

theorem toNat_matchValue : (matchValue opc).toNat = opc.toNat * 2 ^ 24 := by
  simp only [matchValue, toNat_append, BitVec.toNat_ofNat]
  omega

theorem toNat_encodeN : (encodeN opc).toNat = opc.toNat * 2 ^ 24 := toNat_matchValue opc

theorem toNat_encodeC (ksz bsz : BitVec 2) :
    (encodeC opc ksz bsz).toNat = opc.toNat * 2 ^ 24 + ksz.toNat * 2 ^ 18 + bsz.toNat * 2 ^ 16 := by
  simp only [encodeC, toNat_append, BitVec.toNat_ofNat]
  omega

theorem toNat_encodeW (w : Nat) : (encodeW opc w).toNat = opc.toNat * 2 ^ 24 + w % 8 := by
  simp only [encodeW, toNat_append, BitVec.toNat_ofNat]
  omega

theorem toNat_encodeT (t : Fin 4) : (encodeT opc t).toNat = opc.toNat * 2 ^ 24 + t.val := by
  simp only [encodeT, toNat_append, BitVec.toNat_ofNat]
  omega

theorem toNat_encodeR (r : Nat) : (encodeR opc r).toNat = opc.toNat * 2 ^ 24 + r % 32 * 2 ^ 8 := by
  simp only [encodeR, toNat_append, BitVec.toNat_ofNat]
  omega

theorem toNat_encodeRW (r w : Nat) : (encodeRW opc r w).toNat = opc.toNat * 2 ^ 24 + r % 32 * 2 ^ 8 + w % 8 := by
  simp only [encodeRW, toNat_append, BitVec.toNat_ofNat]
  omega

theorem toNat_encodeG (a b : Byte) : (encodeG opc a b).toNat = opc.toNat * 2 ^ 24 + a.toNat * 2 ^ 8 + b.toNat := by
  simp only [encodeG, toNat_append, BitVec.toNat_ofNat]
  omega

end EncodedNumbers

/-! ### The fields of an encoding -/

theorem opcField_eq_iff {c : CmdWord} {opc : Byte} : opcField c = opc ↔ c.toNat / 2 ^ 24 = opc.toNat := by
  rw [BitVec.toNat_eq, toNat_opcField]

section EncodedFields

variable (opc : Byte)

@[simp] theorem opcField_matchValue : opcField (matchValue opc) = opc := by
  rw [opcField_eq_iff, toNat_matchValue]
  omega

@[simp] theorem opcField_encodeN : opcField (encodeN opc) = opc := opcField_matchValue opc

@[simp] theorem opcField_encodeC (ksz bsz : BitVec 2) : opcField (encodeC opc ksz bsz) = opc := by
  rw [opcField_eq_iff, toNat_encodeC]
  omega

@[simp] theorem opcField_encodeW (w : Nat) : opcField (encodeW opc w) = opc := by
  rw [opcField_eq_iff, toNat_encodeW]
  omega

@[simp] theorem opcField_encodeT (t : Fin 4) : opcField (encodeT opc t) = opc := by
  rw [opcField_eq_iff, toNat_encodeT]
  omega

@[simp] theorem opcField_encodeR (r : Nat) : opcField (encodeR opc r) = opc := by
  rw [opcField_eq_iff, toNat_encodeR]
  omega

@[simp] theorem opcField_encodeRW (r w : Nat) : opcField (encodeRW opc r w) = opc := by
  rw [opcField_eq_iff, toNat_encodeRW]
  omega

@[simp] theorem opcField_encodeG (a b : Byte) : opcField (encodeG opc a b) = opc := by
  rw [opcField_eq_iff, toNat_encodeG]
  omega

@[simp] theorem kszField_encodeC (ksz bsz : BitVec 2) : kszField (encodeC opc ksz bsz) = sizeOfCode ksz :=
  congrArg sizeOfCode (BitVec.eq_of_toNat_eq (by rw [toNat_extractLsb', toNat_encodeC]; omega))

@[simp] theorem bszField_encodeC (ksz bsz : BitVec 2) : bszField (encodeC opc ksz bsz) = sizeOfCode bsz :=
  congrArg sizeOfCode (BitVec.eq_of_toNat_eq (by rw [toNat_extractLsb', toNat_encodeC]; omega))

theorem wField_encodeW {w : Nat} (hw : w < 8) : wField (encodeW opc w) = w := by
  rw [wField_eq, toNat_encodeW]
  omega

@[simp] theorem tField_encodeT (t : Fin 4) : tField (encodeT opc t) = t :=
  Fin.ext (by rw [val_tField, toNat_encodeT]; omega)

theorem rField_encodeR {r : Nat} (hr : r < 32) : rField (encodeR opc r) = r := by
  rw [rField_eq, toNat_encodeR]
  omega

theorem rField_encodeRW {r : Nat} (hr : r < 32) (w : Nat) : rField (encodeRW opc r w) = r := by
  rw [rField_eq, toNat_encodeRW]
  omega

theorem wField_encodeRW (r : Nat) {w : Nat} (hw : w < 8) : wField (encodeRW opc r w) = w := by
  rw [wField_eq, toNat_encodeRW]
  omega

@[simp] theorem aField_encodeG (a b : Byte) : aField (encodeG opc a b) = a :=
  BitVec.eq_of_toNat_eq (by rw [toNat_aField, toNat_encodeG]; omega)

@[simp] theorem bField_encodeG (a b : Byte) : bField (encodeG opc a b) = b :=
  BitVec.eq_of_toNat_eq (by rw [toNat_bField, toNat_encodeG]; omega)

end EncodedFields

/-! ### What a mask leaves of a word (R202, column "mask")
Each mask is a row of blocks of ones, the fixed bits, and blocks of zeros, the operands. -/

/-- A mask in two blocks acts on the two parts of the word. -/
theorem toNat_and_append {m n : Nat} (c : BitVec (m + n)) (x : BitVec m) (y : BitVec n) :
    (c &&& (x ++ y)).toNat = (c.extractLsb' n m &&& x).toNat * 2 ^ n + (c.extractLsb' 0 n &&& y).toNat := by
  conv_lhs => rw [← BitVec.extractLsb'_append_extractLsb' (x := c), BitVec.and_append]
  exact toNat_append _ _

section Masks

variable (c : CmdWord)

theorem toNat_and_mask_N : (c &&& Format.N.mask).toNat = c.toNat := congrArg BitVec.toNat BitVec.and_allOnes

theorem toNat_and_mask_C : (c &&& Format.C.mask).toNat = c.toNat / 2 ^ 20 * 2 ^ 20 + c.toNat % 2 ^ 16 := by
  have blocks : Format.C.mask = BitVec.allOnes 12 ++ (0#4 ++ BitVec.allOnes 16) := rfl
  rw [blocks, toNat_and_append (m := 12) (n := 20), toNat_and_append (m := 4) (n := 16)]
  simp only [BitVec.and_allOnes, BitVec.and_zero, toNat_extractLsb', BitVec.toNat_ofNat]
  omega

theorem toNat_and_mask_W : (c &&& Format.W.mask).toNat = c.toNat / 2 ^ 3 * 2 ^ 3 := by
  have blocks : Format.W.mask = BitVec.allOnes 29 ++ 0#3 := rfl
  rw [blocks, toNat_and_append (m := 29) (n := 3)]
  simp only [BitVec.and_allOnes, BitVec.and_zero, toNat_extractLsb', BitVec.toNat_ofNat]
  omega

theorem toNat_and_mask_T : (c &&& Format.T.mask).toNat = c.toNat / 2 ^ 2 * 2 ^ 2 := by
  have blocks : Format.T.mask = BitVec.allOnes 30 ++ 0#2 := rfl
  rw [blocks, toNat_and_append (m := 30) (n := 2)]
  simp only [BitVec.and_allOnes, BitVec.and_zero, toNat_extractLsb', BitVec.toNat_ofNat]
  omega

theorem toNat_and_mask_R : (c &&& Format.R.mask).toNat = c.toNat / 2 ^ 13 * 2 ^ 13 + c.toNat % 2 ^ 8 := by
  have blocks : Format.R.mask = BitVec.allOnes 19 ++ (0#5 ++ BitVec.allOnes 8) := rfl
  rw [blocks, toNat_and_append (m := 19) (n := 13), toNat_and_append (m := 5) (n := 8)]
  simp only [BitVec.and_allOnes, BitVec.and_zero, toNat_extractLsb', BitVec.toNat_ofNat]
  omega

theorem toNat_and_mask_RW :
    (c &&& Format.RW.mask).toNat = c.toNat / 2 ^ 13 * 2 ^ 13 + c.toNat % 2 ^ 8 / 2 ^ 3 * 2 ^ 3 := by
  have blocks : Format.RW.mask = BitVec.allOnes 19 ++ (0#5 ++ (BitVec.allOnes 5 ++ 0#3)) := rfl
  rw [blocks, toNat_and_append (m := 19) (n := 13), toNat_and_append (m := 5) (n := 8), toNat_and_append (m := 5) (n := 3)]
  simp only [BitVec.and_allOnes, BitVec.and_zero, toNat_extractLsb', BitVec.toNat_ofNat]
  omega

theorem toNat_and_mask_G : (c &&& Format.G.mask).toNat = c.toNat / 2 ^ 16 * 2 ^ 16 := by
  have blocks : Format.G.mask = BitVec.allOnes 16 ++ 0#16 := rfl
  rw [blocks, toNat_and_append (m := 16) (n := 16)]
  simp only [BitVec.and_allOnes, BitVec.and_zero, toNat_extractLsb', BitVec.toNat_ofNat]
  omega

/-- Every format fixes the whole of OPC. -/
theorem opcField_and_mask (f : Format) : opcField (c &&& f.mask) = opcField c := by
  apply BitVec.eq_of_toNat_eq
  rw [toNat_opcField, toNat_opcField]
  cases f with
  | N => rw [toNat_and_mask_N]
  | C => rw [toNat_and_mask_C]; omega
  | W => rw [toNat_and_mask_W]; omega
  | T => rw [toNat_and_mask_T]; omega
  | R => rw [toNat_and_mask_R]; omega
  | RW => rw [toNat_and_mask_RW]; omega
  | G => rw [toNat_and_mask_G]; omega

end Masks

end Sys2Proof
end

section
/-! PROOFS. The decoder and the encoder (spec/30_encoding.md rules R202, R203, R205 and R206). The mask test asks whether
the word is the one that its own fields make, so `decode` accepts exactly the words that `encode` writes. -/

namespace Sys2Proof

/-! ### The mask test -/

/-- The word of format `f` with this OPC that has the operand fields of `c` and zeros in its reserved bits. -/
def Format.wordOf (opc : Byte) (c : CmdWord) : Format → CmdWord
  | .N => encodeN opc
  | .C => encodeC opc (kszField c).code (bszField c).code
  | .W => encodeW opc (wField c)
  | .T => encodeT opc (tField c)
  | .R => encodeR opc (rField c)
  | .RW => encodeRW opc (rField c) (wField c)
  | .G => encodeG opc (aField c) (bField c)

/-- A word passes the mask test of a format exactly where the reserved bits are zero, that is, where it is the word that
its fields make. -/
theorem and_mask_eq_matchValue_iff (f : Format) (c : CmdWord) :
    c &&& f.mask = matchValue (opcField c) ↔ f.wordOf (opcField c) c = c := by
  rw [BitVec.toNat_eq, BitVec.toNat_eq, toNat_matchValue]
  cases f with
  | N => rw [toNat_and_mask_N, Format.wordOf, toNat_encodeN, eq_comm]
  | C =>
    rw [toNat_and_mask_C, Format.wordOf, toNat_encodeC, toNat_opcField, toNat_code_kszField, toNat_code_bszField]
    omega
  | W => rw [toNat_and_mask_W, Format.wordOf, toNat_encodeW, toNat_opcField, wField_eq]; omega
  | T => rw [toNat_and_mask_T, Format.wordOf, toNat_encodeT, toNat_opcField, val_tField]; omega
  | R => rw [toNat_and_mask_R, Format.wordOf, toNat_encodeR, toNat_opcField, rField_eq]; omega
  | RW => rw [toNat_and_mask_RW, Format.wordOf, toNat_encodeRW, toNat_opcField, rField_eq, wField_eq]; omega
  | G => rw [toNat_and_mask_G, Format.wordOf, toNat_encodeG, toNat_opcField, toNat_aField, toNat_bField]; omega

/-! ### The rows of the decoder (R205) -/

/-- A row's command is encoded in the row's format, with its operands as the word's fields give them. -/
theorem encode_of_opcodeRow {n : Nat} {c : CmdWord} {f : Format} {i : Instr} (h : opcodeRow n c = some (f, i)) :
    encode i = f.wordOf (BitVec.ofNat 8 n) c := by
  unfold opcodeRow at h
  split at h <;> cases h <;> rfl

/-- A field is read within its bounds, so a row's command is well-formed. -/
theorem wellFormed_of_opcodeRow {n : Nat} {c : CmdWord} {f : Format} {i : Instr} (h : opcodeRow n c = some (f, i)) :
    i.WellFormed = true := by
  have hw : wField c < 8 := by rw [wField_eq]; omega
  have hr : rField c < 32 := by rw [rField_eq]; omega
  unfold opcodeRow at h
  split at h <;> cases h <;> simp [Instr.WellFormed, hw, hr]

/-- The operand fields of a word decide neither the format nor the mnemonic. -/
theorem opcodeRow_same_row (n : Nat) (c c' : CmdWord) :
    (opcodeRow n c).map (Prod.map id Machine.mnemonic) = (opcodeRow n c').map (Prod.map id Machine.mnemonic) := by
  unfold opcodeRow
  split <;> rfl

/-- The encoded word of a well-formed command is in the command's row and carries its operands. -/
theorem exists_opcodeRow_encode {i : Instr} (h : i.WellFormed = true) :
    ∃ f, opcodeRow (opcField (encode i)).toNat (encode i) = some (f, i) := by
  cases i with
  | create ksz bsz => exact ⟨.C, by simp [encode, opcodeRow]⟩
  | ldst w | ldkey w | ldaux w | rdst w | rdkt w =>
    have hw : w < 8 := of_decide_eq_true h
    exact ⟨.W, by simp [encode, opcodeRow, wField_encodeW, hw]⟩
  | rdrk r w =>
    obtain ⟨hr, hw⟩ : r < 32 ∧ w < 8 := by simpa [Instr.WellFormed] using h
    exact ⟨.RW, by simp [encode, opcodeRow, rField_encodeRW, wField_encodeRW, hr, hw]⟩
  | gfmul a b => exact ⟨.G, by simp [encode, opcodeRow]⟩
  | sbox t | isbox t => exact ⟨.T, by simp [encode, opcodeRow]⟩
  | addrk r | subrk r | xorrk r =>
    have hr : r < 32 := of_decide_eq_true h
    exact ⟨.R, by simp [encode, opcodeRow, rField_encodeR, hr]⟩
  | _ => exact ⟨.N, rfl⟩

/-! ### The round trips -/

/-- R203 as `decode` computes it: the OPC has a row, and the word passes the mask test of the row's format. -/
theorem decode_eq_ok_iff {c : CmdWord} {i : Instr} :
    decode c = .ok i ↔
      ∃ f, opcodeRow (opcField c).toNat c = some (f, i) ∧ c &&& f.mask = matchValue (opcField c) := by
  unfold decode
  split
  next noRow => simp [noRow]
  next f j row =>
    rw [row]
    split
    next test => simp [test]
    next test => simpa using fun _ => test

/-- In the row of its OPC, a word passes the mask test exactly where it is the encoding of the row's command. -/
theorem and_mask_eq_matchValue_iff_encode {c : CmdWord} {f : Format} {i : Instr}
    (row : opcodeRow (opcField c).toNat c = some (f, i)) :
    c &&& f.mask = matchValue (opcField c) ↔ encode i = c := by
  have sameWord : encode i = f.wordOf (opcField c) c := by
    rw [encode_of_opcodeRow row, BitVec.ofNat_toNat, BitVec.setWidth_eq]
  rw [sameWord, and_mask_eq_matchValue_iff]

/-- Settles O1: the encoding lies in the command's row with the command's operands in its fields, and passes the mask
test because it is an encoding. -/
theorem decodeOfEncodeIsTheCommand : Obligations.DecodeOfEncodeIsTheCommand := by
  intro i h
  obtain ⟨f, row⟩ := exists_opcodeRow_encode h
  exact decode_eq_ok_iff.mpr ⟨f, row, (and_mask_eq_matchValue_iff_encode row).mpr rfl⟩

/-- Settles O2: the row of a decoded word has a well-formed command, and the mask test makes the word its encoding. -/
theorem decodedCommandHasOneWord : Obligations.DecodedCommandHasOneWord := by
  intro c i h
  obtain ⟨f, row, test⟩ := decode_eq_ok_iff.mp h
  exact ⟨wellFormed_of_opcodeRow row, (and_mask_eq_matchValue_iff_encode row).mp test⟩

/-- Settles O5: each printed word is the encoding of the command it is printed for. -/
theorem exampleWordsDecode : Obligations.ExampleWordsDecode :=
  ⟨decodeOfEncodeIsTheCommand .enc rfl, decodeOfEncodeIsTheCommand (.create .bits512 .bits256) rfl,
    decodeOfEncodeIsTheCommand (.ldst 1) rfl, decodeOfEncodeIsTheCommand (.rdst 0) rfl,
    decodeOfEncodeIsTheCommand (.rdrk 10 1) rfl, decodeOfEncodeIsTheCommand (.xorrk 3) rfl,
    decodeOfEncodeIsTheCommand (.sbox 2) rfl, decodeOfEncodeIsTheCommand (.gfmul 0x80#8 0x02#8) rfl⟩

end Sys2Proof
end

section
/-! PROOFS. The decoder against the printed opcode map (spec/30_encoding.md rules R203 and R205): the words of a printed
row are the words that `decode` takes to the row's mnemonic. -/

namespace Sys2Proof.Machine

/-- The row that the opcode map prints for an OPC: `match` is the OPC over zeros, `mask` the mask of the format. -/
def printedRow (opc : Byte) (entry : Format × String) : OpcodeRow := ⟨entry.2, matchValue opc, entry.1.mask⟩

/-- The printed map lists the decoder's rows in the order of their OPCs, whatever the operand fields hold. -/
theorem opcodeMap_eq_decoderRows (c : CmdWord) :
    opcodeMap = (List.range 256).filterMap fun n =>
      ((opcodeRow n c).map (Prod.map id mnemonic)).map (printedRow (BitVec.ofNat 8 n)) := by
  simp only [opcodeRow_same_row _ c 0#32]
  decide +kernel

theorem mem_opcodeMap_iff {row : OpcodeRow} (c : CmdWord) :
    row ∈ opcodeMap ↔
      ∃ opc f i, opcodeRow opc.toNat c = some (f, i) ∧ row = printedRow opc (f, mnemonic i) := by
  rw [opcodeMap_eq_decoderRows c]
  simp only [List.mem_filterMap, List.mem_range, Option.map_eq_some_iff]
  constructor
  · rintro ⟨n, hn, _, ⟨⟨f, i⟩, decoded, rfl⟩, rfl⟩
    exact ⟨BitVec.ofNat 8 n, f, i, by rwa [BitVec.toNat_ofNat, Nat.mod_eq_of_lt hn], rfl⟩
  · rintro ⟨opc, f, i, decoded, rfl⟩
    exact ⟨opc.toNat, opc.isLt, (f, mnemonic i), ⟨(f, i), decoded, rfl⟩,
      by rw [BitVec.ofNat_toNat, BitVec.setWidth_eq]⟩

/-- A word passes a mask test only under its own OPC. -/
theorem opcField_of_mask_test {c : CmdWord} {f : Format} {opc : Byte} (test : c &&& f.mask = matchValue opc) :
    opcField c = opc := by
  rw [← opcField_and_mask c f, test, opcField_matchValue]

/-- The printed rows that a word matches are the row, one or none, of the command it decodes to. -/
theorem mem_opcodeMap_and_matches_iff {row : OpcodeRow} {c : CmdWord} :
    row ∈ opcodeMap ∧ row.Matches c ↔
      ∃ f i, decode c = .ok i ∧ opcodeRow (opcField c).toNat c = some (f, i) ∧
        row = printedRow (opcField c) (f, mnemonic i) := by
  constructor
  · rintro ⟨mem, test⟩
    obtain ⟨opc, f, i, decoded, rfl⟩ := (mem_opcodeMap_iff c).mp mem
    obtain rfl : opcField c = opc := opcField_of_mask_test test
    exact ⟨f, i, decode_eq_ok_iff.mpr ⟨f, decoded, test⟩, decoded, rfl⟩
  · rintro ⟨f, i, ok, decoded, rfl⟩
    obtain ⟨f', decoded', test⟩ := decode_eq_ok_iff.mp ok
    obtain rfl : f = f' := by rw [decoded] at decoded'; cases decoded'; rfl
    exact ⟨(mem_opcodeMap_iff c).mpr ⟨_, f, i, decoded, rfl⟩, test⟩

/-- A word that decodes matches a printed row of its command. -/
theorem exists_matching_row {c : CmdWord} {i : Instr} (ok : decode c = .ok i) :
    ∃ row ∈ opcodeMap, row.Matches c ∧ row.mnemonic = mnemonic i := by
  obtain ⟨f, decoded, -⟩ := decode_eq_ok_iff.mp ok
  obtain ⟨mem, test⟩ := mem_opcodeMap_and_matches_iff.mpr ⟨f, i, ok, decoded, rfl⟩
  exact ⟨_, mem, test, rfl⟩

/-- R203: the step of a word that does not decode is the error entry, while no error is pending. -/
theorem step_of_decode_error {s : State} {c : CmdWord} {d : Word} {rest : List HostEvent} {e : DecodeError}
    (hp : s.pending = .command c d :: rest) (he : s.err = false) (hd : decode c = .error e) :
    step s = .next ((s.withPort c d rest).faulted .illegalCmd) := by
  rw [step_of_command hp]
  simp only [executePort, hd]
  exact unlessError_of_clear _ he

/-- Settles O3: all four clauses read off which printed rows a word matches. -/
theorem decodingFollowsTheOpcodeMap : Obligations.DecodingFollowsTheOpcodeMap := by
  refine ⟨fun _ _ => exists_matching_row, fun c row mem test => ?decodes, fun c row mem row' mem' test test' => ?unique,
    fun s c d rest hp he noRow => ?illegal⟩
  case decodes =>
    obtain ⟨f, i, ok, -, rfl⟩ := mem_opcodeMap_and_matches_iff.mp ⟨mem, test⟩
    exact ⟨i, ok, rfl⟩
  case unique =>
    obtain ⟨f, i, -, decoded, rfl⟩ := mem_opcodeMap_and_matches_iff.mp ⟨mem, test⟩
    obtain ⟨f', i', -, decoded', rfl⟩ := mem_opcodeMap_and_matches_iff.mp ⟨mem', test'⟩
    cases decoded.symm.trans decoded'
    rfl
  case illegal =>
    cases hd : decode c with
    | error e => exact step_of_decode_error hp he hd
    | ok i =>
      obtain ⟨row, mem, test, -⟩ := exists_matching_row hd
      exact absurd test (noRow row mem)

end Sys2Proof.Machine
end

section
/-! PROOFS. Polynomials over GF(2) as bit vectors: XOR is their sum. A map that carries sums to sums is known from its
values on the monomials, so two multiplications that are additive in each operand agree where they agree on the
monomials. -/

namespace Sys2Proof.Machine

/-- `f` carries XOR to XOR. -/
def XorAdditive {m n : Nat} (f : BitVec m → BitVec n) : Prop := ∀ x y, f (x ^^^ y) = f x ^^^ f y

/-- The terms of `x` below `k + 1` are those below `k` and the term at `k`, if `x` has it. -/
theorem setWidth_succ_eq_xor_twoPow {w : Nat} (x : BitVec w) (k : Nat) :
    (x.setWidth (k + 1)).setWidth w =
      (x.setWidth k).setWidth w ^^^ if x.getLsbD k then BitVec.twoPow w k else 0#w := by
  ext i hi
  rw [BitVec.getElem_xor, apply_ite (fun y : BitVec w => y[i])]
  simp only [BitVec.getElem_setWidth, BitVec.getLsbD_setWidth, BitVec.getElem_twoPow, BitVec.getElem_zero]
  grind

/-- Every polynomial is a sum of monomials. -/
theorem xor_induction {w : Nat} {P : BitVec w → Prop} (zero : P 0#w) (xor : ∀ x y, P x → P y → P (x ^^^ y))
    (monomial : ∀ i < w, P (BitVec.twoPow w i)) (x : BitVec w) : P x := by
  have terms_below : ∀ k ≤ w, P ((x.setWidth k).setWidth w) := by
    intro k
    induction k with
    | zero => simpa [BitVec.of_length_zero] using zero
    | succ k ih =>
      intro hk
      rw [setWidth_succ_eq_xor_twoPow]
      refine xor _ _ (ih (Nat.le_of_succ_le hk)) ?_
      split
      · exact monomial k hk
      · exact zero
  simpa using terms_below w le_rfl

namespace XorAdditive

variable {l m n : Nat} {f g : BitVec m → BitVec n}

theorem map_zero (hf : XorAdditive f) : f 0#m = 0#n := by
  simpa using hf 0#m 0#m

theorem comp {h : BitVec l → BitVec m} (hf : XorAdditive f) (hh : XorAdditive h) : XorAdditive fun x => f (h x) :=
  fun x y => (congrArg f (hh x y)).trans (hf _ _)

/-- Two additive maps that agree on the monomials are one. -/
theorem ext (hf : XorAdditive f) (hg : XorAdditive g)
    (monomials : ∀ i < m, f (BitVec.twoPow m i) = g (BitVec.twoPow m i)) (x : BitVec m) : f x = g x :=
  xor_induction (P := fun x => f x = g x) (by rw [hf.map_zero, hg.map_zero])
    (fun x y hx hy => by rw [hf, hg, hx, hy]) monomials x

end XorAdditive

/-- `f` is additive in each of its two operands. -/
structure XorBiadditive (f : Byte → Byte → Byte) : Prop where
  left : ∀ b, XorAdditive fun a => f a b
  right : ∀ a, XorAdditive (f a)

namespace XorBiadditive

variable {f g : Byte → Byte → Byte}

theorem swap (hf : XorBiadditive f) : XorBiadditive fun a b => f b a := ⟨hf.right, hf.left⟩

/-- Two biadditive maps that agree on the pairs of monomials are one. -/
theorem ext (hf : XorBiadditive f) (hg : XorBiadditive g)
    (monomials : ∀ i < 8, ∀ j < 8,
      f (BitVec.twoPow 8 i) (BitVec.twoPow 8 j) = g (BitVec.twoPow 8 i) (BitVec.twoPow 8 j)) (a b : Byte) :
    f a b = g a b :=
  (hf.left b).ext (hg.left b) (fun i hi => (hf.right _).ext (hg.right _) (monomials i hi) b) a

end XorBiadditive

/-! ### Conditional sums: one turn of a bit-serial loop -/

/-- A term that is added where a bit is set: additive in the bit. -/
theorem ite_xor_xor {n : Nat} (c d : Bool) (p q x : BitVec n) :
    (if c ^^ d then p ^^^ q ^^^ x else p ^^^ q) = (if c then p ^^^ x else p) ^^^ if d then q ^^^ x else q := by
  cases c <;> cases d
  case false.false => rfl
  case false.true => exact BitVec.xor_assoc p q x
  case true.false =>
    simp only [Bool.xor_false, Bool.false_eq_true, if_true, if_false]
    ac_rfl
  case true.true =>
    have twice : p ^^^ x ^^^ (q ^^^ x) = p ^^^ q ^^^ (x ^^^ x) := by ac_rfl
    simp [twice]

/-- A term that is added where a bit is set: additive in the term. -/
theorem ite_xor_xor_xor {n : Nat} (c : Bool) (p q x y : BitVec n) :
    (if c then p ^^^ q ^^^ (x ^^^ y) else p ^^^ q) = (if c then p ^^^ x else p) ^^^ if c then q ^^^ y else q := by
  cases c with
  | false => rfl
  | true => simp only [if_true]; ac_rfl

end Sys2Proof.Machine
end

section
/-! PROOFS. The GF(2^8) multiplier (spec/40_gf_multiplier.md rules R40, R42 and R43): the bit-serial loop is additive
in each operand, and so is the polynomial product reduced modulo `x^8+x^4+x^3+x^2+1`. -/

namespace Sys2Proof.Machine

/-! ### The bit-serial loop -/

theorem gfShift_xorAdditive : XorAdditive gfShift := fun x y => by
  simp only [gfShift, BitVec.getLsbD_xor, BitVec.shiftLeft_xor_distrib, ite_xor_xor]

theorem gfLoop_xor_left (n : Nat) (acc acc' x x' y : Byte) :
    gfLoop n (acc ^^^ acc') (x ^^^ x') y = gfLoop n acc x y ^^^ gfLoop n acc' x' y := by
  induction n generalizing acc acc' x x' y with
  | zero => rfl
  | succ n ih => simp only [gfLoop, gfShift_xorAdditive x x', ite_xor_xor_xor, ih]

theorem gfLoop_xor_right (n : Nat) (acc acc' x y y' : Byte) :
    gfLoop n (acc ^^^ acc') x (y ^^^ y') = gfLoop n acc x y ^^^ gfLoop n acc' x y' := by
  induction n generalizing acc acc' x y y' with
  | zero => rfl
  | succ n ih => simp only [gfLoop, BitVec.getLsbD_xor, BitVec.ushiftRight_xor_distrib, ite_xor_xor, ih]

/-- Once the multiplier is used up, the accumulator stays. -/
@[simp] theorem gfLoop_zero_right (n : Nat) (acc x : Byte) : gfLoop n acc x 0#8 = acc := by
  induction n generalizing x with
  | zero => rfl
  | succ n ih => exact ih (gfShift x)

theorem gfMul_biadditive : XorBiadditive gfMul where
  left b := fun a a' => gfLoop_xor_left 8 0#8 0#8 a a' b
  right a := gfLoop_xor_right 8 0#8 0#8 a

theorem gfMul_comm (a b : Byte) : gfMul a b = gfMul b a :=
  gfMul_biadditive.ext gfMul_biadditive.swap (by decide +kernel) a b

@[simp] theorem gfMul_zero (a : Byte) : gfMul a 0#8 = 0#8 := gfLoop_zero_right 8 0#8 a

@[simp] theorem gfMul_one (a : Byte) : gfMul a 1#8 = a := by
  calc gfMul a 1#8 = gfLoop 7 (0#8 ^^^ a) (gfShift a) 0#8 := rfl
    _ = 0#8 ^^^ a := gfLoop_zero_right ..
    _ = a := BitVec.zero_xor

/-! ### The polynomial product and its remainder -/

theorem polyProduct_xorAdditive_left (b : Byte) : XorAdditive fun a => polyProduct a b := fun a a' => by
  refine List.foldl_hom₂ (List.range 8) (· ^^^ ·) _ _ _ 0#15 0#15 fun p q i => ?_
  rw [BitVec.setWidth_xor, BitVec.shiftLeft_xor_distrib, ite_xor_xor_xor]

theorem polyProduct_xorAdditive_right (a : Byte) : XorAdditive (polyProduct a) := fun b b' => by
  refine List.foldl_hom₂ (List.range 8) (· ^^^ ·) _ _ _ 0#15 0#15 fun p q i => ?_
  rw [BitVec.getLsbD_xor, ite_xor_xor]

theorem polyRemainder_xorAdditive : XorAdditive polyRemainder := fun p q => by
  rw [polyRemainder, polyRemainder, polyRemainder, ← BitVec.setWidth_xor]
  refine congrArg _ (List.foldl_hom₂ (List.range 7) (· ^^^ ·) _ _ _ p q fun p q k => ?_)
  rw [BitVec.getLsbD_xor, ite_xor_xor]

theorem reducedProduct_biadditive : XorBiadditive fun a b => polyRemainder (polyProduct a b) where
  left b := polyRemainder_xorAdditive.comp (polyProduct_xorAdditive_left b)
  right a := polyRemainder_xorAdditive.comp (polyProduct_xorAdditive_right a)

theorem gfMul_eq_polyRemainder_polyProduct (a b : Byte) : gfMul a b = polyRemainder (polyProduct a b) :=
  gfMul_biadditive.ext reducedProduct_biadditive (by decide +kernel) a b

/-! ### The statements -/

/-- Settles O25: the loop is additive in each operand, and it commutes on the monomials. -/
theorem gfMulIsCommutativeAndDistributive : Obligations.GfMulIsCommutativeAndDistributive :=
  fun a b c => ⟨gfMul_comm a b, gfMul_biadditive.right a b c, gfMul_zero a⟩

/-- Settles O26: the loop and the reduced product are additive in each operand, and they agree on the monomials. -/
theorem gfMulIsTheReducedPolynomialProduct : Obligations.GfMulIsTheReducedPolynomialProduct :=
  fun a b => ⟨gfMul_eq_polyRemainder_polyProduct a b, gfMul_one a⟩

end Sys2Proof.Machine
end

section
/-! PROOFS. The byte units GFMUL, SBOX and ISBOX (spec/40_gf_multiplier.md rule R41, spec/42_substitution.md rules R63
to R65): each S-box takes every value, so the search that derives its inverse finds a preimage. -/

namespace Sys2Proof.Machine

/-! ### The inverse S-boxes -/

/-- The values of `f` at the bytes below `n`, as a number: bit `v` is 1 where `v` is one of them. -/
def valueSet (f : Byte → Byte) : Nat → Nat
  | 0 => 0
  | n + 1 => valueSet f n ||| 2 ^ (f (BitVec.ofNat 8 n)).toNat

theorem testBit_valueSet (f : Byte → Byte) (n : Nat) (v : Byte) :
    (valueSet f n).testBit v.toNat = true ↔ ∃ u < n, f (BitVec.ofNat 8 u) = v := by
  induction n with
  | zero => simp [valueSet]
  | succ n ih =>
    have last : (2 ^ (f (BitVec.ofNat 8 n)).toNat).testBit v.toNat = true ↔ f (BitVec.ofNat 8 n) = v := by
      rw [Nat.testBit_two_pow, decide_eq_true_iff, BitVec.toNat_inj]
    rw [valueSet, Nat.testBit_or, Bool.or_eq_true, ih, last, Nat.exists_lt_succ_right]

/-- Each S-box takes all 256 values (R62). -/
theorem valueSet_sbox : ∀ t : Fin 4, valueSet (tables.sbox t) 256 = 2 ^ 256 - 1 := by decide +kernel

theorem sbox_surjective (t : Fin 4) : Function.Surjective (tables.sbox t) := fun v => by
  have all : (valueSet (tables.sbox t) 256).testBit v.toNat = true := by
    rw [valueSet_sbox, Nat.testBit_two_pow_sub_one, decide_eq_true v.isLt]
  obtain ⟨u, -, hu⟩ := (testBit_valueSet _ _ _).mp all
  exact ⟨_, hu⟩

/-- The search finds a preimage among the last `n` bytes, if there is one. -/
theorem apply_findPreimage {f : Byte → Byte} {v : Byte} {n : Nat} (h : ∃ k < n, f (BitVec.ofNat 8 (255 - k)) = v) :
    f (findPreimage f v n) = v := by
  induction n with
  | zero => simp at h
  | succ n ih =>
    rw [findPreimage]
    split_ifs with first
    · exact first
    · exact ih ((Nat.exists_lt_succ_right.mp h).resolve_right first)

/-- S[t] undoes SI[t] (R63). -/
theorem sbox_sboxInv (t : Fin 4) (v : Byte) : tables.sbox t (sboxInv tables t v) = v := by
  obtain ⟨u, hu⟩ := sbox_surjective t v
  refine apply_findPreimage ⟨255 - u.toNat, by omega, ?_⟩
  rwa [Nat.sub_sub_self (Nat.le_of_lt_succ u.isLt), BitVec.ofNat_toNat, BitVec.setWidth_eq]

/-! ### The commands -/

/-- The byte operand is DIN's low byte (R33). -/
theorem dinByte_eq_setWidth (s : State) : s.dinByte = s.din.setWidth 8 :=
  (BitVec.setWidth_eq_extractLsb' (by decide)).symm

/-- `zext_64` of a byte puts 56 zeros before it. -/
theorem setWidth_64_eq_append (v : Byte) : v.setWidth 64 = 0#56 ++ v := BitVec.setWidth_eq_append (by decide)

/-- A command that puts a byte on DOUT and has no error does just that. -/
theorem exec_of_byte {i : Instr} {s : State} {v : Byte} (he : s.err = false) (noError : errorOf i s = none)
    (hv : readValue i s = some (v.setWidth 64)) : exec i s = .next { s with dout := 0#56 ++ v } := by
  have runs : executes i s = true := by simp [executes, he, noError]
  rw [exec_of_executes runs, effect_of_readValue hv, setWidth_64_eq_append]
  rfl

/-- Settles O44: the three commands have no check but the ERR gate, and the byte that ISBOX finds is a preimage. -/
theorem byteUnitsPutTheByteOnDout : Obligations.ByteUnitsPutTheByteOnDout := by
  intro s a b t he
  refine ⟨exec_of_byte he rfl rfl, ?sbox, sboxInv tables t s.dinByte, ?preimage, exec_of_byte he rfl rfl⟩
  case sbox => exact exec_of_byte he rfl (by rw [← dinByte_eq_setWidth]; rfl)
  case preimage => rw [sbox_sboxInv, dinByte_eq_setWidth]

end Sys2Proof.Machine
end

section
/-! PROOFS. Bytes and words (spec/41_canonical.md rules R50 and R51). The eight bytes of a word and the word of eight
bytes undo each other, and both functions go on in steps of eight bytes. -/

namespace Sys2Proof.Machine

/-! ### One word -/

/-- A word is made of its bytes (R31). -/
theorem ofBytes_byteOf (w : Word) : ofBytes (byteOf w) = w := word_ext_byteOf fun _ hj => byteOf_ofBytes _ hj

/-- The value of a word, its first byte the least significant. -/
theorem toNat_ofBytes (f : Nat → Byte) :
    (ofBytes f).toNat = ((List.range 8).map fun j => (f j).toNat * 2 ^ (8 * j)).sum := by
  simp only [ofBytes, toNat_append, List.range_succ, List.range_zero, List.map_append, List.sum_append, List.map_cons,
    List.map_nil, List.sum_cons, List.sum_nil, List.nil_append]
  omega

/-! ### Eight bytes at a time -/

theorem bytes_cons (w : Word) (v : Block) : bytes (w :: v) = (List.range 8).map (byteOf w) ++ bytes v := rfl

theorem words_map_range_append (f : Nat → Byte) (rest : List Byte) :
    words ((List.range 8).map f ++ rest) = ofBytes f :: words rest := rfl

/-- Induction on a byte sequence as `words` goes through it: fewer than eight bytes, or eight bytes and the rest. -/
theorem eightBytes_induction {P : List Byte → Prop} (short : ∀ b, b.length < 8 → P b)
    (step : ∀ (f : Nat → Byte) rest, P rest → P ((List.range 8).map f ++ rest)) (b : List Byte) : P b := by
  induction b using words.induct with
  | case1 b0 b1 b2 b3 b4 b5 b6 b7 rest ih => exact step ([b0, b1, b2, b3, b4, b5, b6, b7].getD · 0#8) rest ih
  | case2 b few =>
    have noWord : (words b).length = 0 := by simp [words]
    rw [length_words] at noWord
    exact short b (by omega)

/-! ### Whole sequences -/

/-- Byte `j` of word `i` stands at place `8i + j` (R50). -/
theorem getElem?_bytes (v : Block) {i j : Nat} (hi : i < v.length) (hj : j < 8) :
    (bytes v)[8 * i + j]? = some (byteOf (v.getD i 0#64) j) := by
  induction v generalizing i with
  | nil => cases hi
  | cons w v ih =>
    rw [bytes_cons]
    cases i with
    | zero => simp [List.getElem?_append, hj]
    | succ i =>
      have place : 8 * (i + 1) + j - 8 = 8 * i + j := by omega
      have later : ¬ 8 * (i + 1) + j < 8 := by omega
      simpa [List.getElem?_append, later, place] using ih (Nat.lt_of_succ_lt_succ hi)

/-- Word `i` is made of the bytes from place `8i` on (R51). -/
theorem getElem?_words (b : List Byte) {i : Nat} (hi : 8 * i + 7 < b.length) :
    (words b)[i]? = some (ofBytes fun j => b.getD (8 * i + j) 0#8) := by
  induction b using eightBytes_induction generalizing i with
  | short b few => omega
  | step f rest ih =>
    rw [words_map_range_append]
    cases i with
    | zero => rfl
    | succ i =>
      have place (j : Nat) : 8 * (i + 1) + j - 8 = 8 * i + j := by omega
      have later (j : Nat) : 8 ≤ 8 * (i + 1) + j := by omega
      simp only [List.length_append, List.length_map, List.length_range] at hi
      simpa [List.getElem?_append_right, later, place] using ih (by omega)

theorem words_bytes (v : Block) : words (bytes v) = v := by
  induction v with
  | nil => rfl
  | cons w v ih => rw [bytes_cons, words_map_range_append, ofBytes_byteOf, ih]

theorem bytes_words {b : List Byte} (hb : b.length % 8 = 0) : bytes (words b) = b := by
  induction b using eightBytes_induction with
  | short b few =>
    obtain rfl : b = [] := List.eq_nil_of_length_eq_zero (by omega)
    rfl
  | step f rest ih =>
    have sameBytes : (List.range 8).map (byteOf (ofBytes f)) = (List.range 8).map f :=
      List.map_congr_left fun _ hj => byteOf_ofBytes f (List.mem_range.mp hj)
    rw [words_map_range_append, bytes_cons, sameBytes, ih (by simpa using hb)]

/-- Settles O27: the places of the bytes, the words' values and the two round trips, each by induction in steps of eight
bytes. -/
theorem wordsAndBytesAreInverse : Obligations.WordsAndBytesAreInverse :=
  ⟨fun v _ _ hi hj => getElem?_bytes v hi hj, fun v => ⟨length_bytes v, words_bytes v⟩,
    fun b _ hi => ⟨_, getElem?_words b hi, toNat_ofBytes _⟩, fun _ hb => bytes_words hb⟩

end Sys2Proof.Machine
end

section
/-! PROOFS. The substitution layer (spec/42_substitution.md rules R60, R61 and R63): a word goes through the tables
byte by byte, and tables that undo each other make layers that undo each other. -/

namespace Sys2Proof.Machine

/-! ### Words and blocks byte by byte -/

/-- Two blocks of one length with the same bytes are equal. -/
theorem block_ext_byteOf {v w : Block} (hlen : v.length = w.length)
    (h : ∀ i < v.length, ∀ j < 8, byteOf (v.getD i 0#64) j = byteOf (w.getD i 0#64) j) : v = w := by
  refine List.ext_getElem hlen fun i hv hw => word_ext_byteOf fun j hj => ?_
  rw [← List.getD_eq_getElem v 0#64 hv, ← List.getD_eq_getElem w 0#64 hw]
  exact h i hv j hj

/-- A layer that works word by word, at a word that exists. -/
theorem getD_map_of_lt (f : Word → Word) (v : Block) {i : Nat} (hi : i < v.length) :
    (v.map f).getD i 0#64 = f (v.getD i 0#64) := by
  simp [hi]

/-- Two layers that work word by word undo each other where their functions do. -/
theorem map_map_of_leftInverse {f g : Word → Word} (h : Function.LeftInverse g f) (v : Block) :
    (v.map f).map g = v := by
  rw [List.map_map, h.comp_eq_id, List.map_id]

theorem byteOf_substituteWord (f : Fin 4 → Byte → Byte) (w : Word) {j : Nat} (hj : j < 8) :
    byteOf (substituteWord f w) j = f (Fin.ofNat 4 j) (byteOf w j) :=
  byteOf_ofBytes _ hj

/-- The table of a byte depends on its place modulo 4 alone (R60). -/
theorem ofNat_mod_four (j : Nat) : Fin.ofNat 4 (j % 4) = Fin.ofNat 4 j := Fin.ext (Nat.mod_mod j 4)

theorem substituteWord_leftInverse {f g : Fin 4 → Byte → Byte} (h : ∀ t, Function.LeftInverse (g t) (f t)) :
    Function.LeftInverse (substituteWord g) (substituteWord f) := fun w => by
  refine word_ext_byteOf fun j hj => ?_
  rw [byteOf_substituteWord g _ hj, byteOf_substituteWord f w hj, h]

/-! ### The two layers -/

section Layers

variable (T : Config.Tables) (v : Block) {i j : Nat} (hi : i < v.length) (hj : j < 8)
include hi hj

theorem byteOf_subBytes :
    byteOf ((subBytes T v).getD i 0#64) j = T.sbox (Fin.ofNat 4 (j % 4)) (byteOf (v.getD i 0#64) j) := by
  rw [subBytes, getD_map_of_lt _ v hi, byteOf_substituteWord _ _ hj, ofNat_mod_four]

theorem byteOf_invSubBytes :
    byteOf ((invSubBytes T v).getD i 0#64) j = sboxInv T (Fin.ofNat 4 (j % 4)) (byteOf (v.getD i 0#64) j) := by
  rw [invSubBytes, getD_map_of_lt _ v hi, byteOf_substituteWord _ _ hj, ofNat_mod_four]

end Layers

/-- SI[t] undoes S[t] (R63): S[t] takes all 256 values, so it takes each of them once. -/
theorem sboxInv_sbox (t : Fin 4) (x : Byte) : sboxInv tables t (tables.sbox t x) = x :=
  Finite.injective_iff_surjective.mpr (sbox_surjective t) (sbox_sboxInv t _)

theorem invSubBytes_subBytes (v : Block) : invSubBytes tables (subBytes tables v) = v :=
  map_map_of_leftInverse (substituteWord_leftInverse sboxInv_sbox) v

theorem subBytes_invSubBytes (v : Block) : subBytes tables (invSubBytes tables v) = v :=
  map_map_of_leftInverse (substituteWord_leftInverse sbox_sboxInv) v

/-- Settles O28: the bytes of a substituted word, and the inverse tables, whose layers undo each other byte by byte. -/
theorem substitutionIsByteWiseAndInvertible : Obligations.SubstitutionIsByteWiseAndInvertible :=
  ⟨fun T v _ _ hi hj => ⟨byteOf_subBytes T v hi hj, byteOf_invSubBytes T v hi hj⟩,
    fun t x => ⟨sboxInv_sbox t x, sbox_sboxInv t x⟩, fun v => ⟨invSubBytes_subBytes v, subBytes_invSubBytes v⟩⟩

end Sys2Proof.Machine
end

section
/-! PROOFS. The row-shift layer (spec/43_row_shift.md rules R80 and R81): each byte keeps its row, and the two layers
undo each other because the columns they take it from do. -/

namespace Sys2Proof.Machine

/-- Every legal block has 2, 4 or 8 words (R7). -/
theorem nb_mem_of_mem_legalRows {nb nk : BitVec 4} {nr : BitVec 5} (h : (nb, nk, nr) ∈ legalRows) :
    nb.toNat ∈ [2, 4, 8] := by
  simp only [legalRows, List.mem_cons, Prod.mk.injEq, List.not_mem_nil, or_false] at h
  obtain ⟨rfl, -⟩ | ⟨rfl, -⟩ | ⟨rfl, -⟩ | ⟨rfl, -⟩ | ⟨rfl, -⟩ := h <;> decide

/-- A row is shifted by less than the number of columns (R80). -/
theorem rowShift_lt {nb r : Nat} (hnb : nb ∈ [2, 4, 8]) (hr : r < 8) : rowShift nb r < nb := by
  simp only [List.mem_cons, List.not_mem_nil, or_false] at hnb
  obtain rfl | rfl | rfl := hnb <;> simp only [rowShift] <;> omega

theorem byteOf_moveColumns (src : Nat → Nat → Nat → Nat) (v : Block) {c r : Nat} (hc : c < v.length) (hr : r < 8) :
    byteOf ((moveColumns src v).getD c 0#64) r = byteOf (v.getD (src v.length c (rowShift v.length r)) 0#64) r := by
  simp [moveColumns, hc, byteOf_ofBytes _ hr]

/-- Two moves of columns undo each other where the sources do. -/
theorem moveColumns_moveColumns {src src' : Nat → Nat → Nat → Nat} {v : Block} (hv : v.length ∈ [2, 4, 8])
    (inRange : ∀ c < v.length, ∀ shift < v.length, src v.length c shift < v.length)
    (undo : ∀ c < v.length, ∀ shift < v.length, src' v.length (src v.length c shift) shift = c) :
    moveColumns src (moveColumns src' v) = v := by
  have len := length_moveColumns src' v
  refine block_ext_byteOf (by simp) fun c hc r hr => ?_
  rw [length_moveColumns, len] at hc
  have hshift := rowShift_lt hv hr
  rw [byteOf_moveColumns src _ (len ▸ hc) hr, len, byteOf_moveColumns src' v (inRange c hc _ hshift) hr,
    undo c hc _ hshift]

theorem invShiftRows_shiftRows {v : Block} (hv : v.length ∈ [2, 4, 8]) : invShiftRows (shiftRows v) = v := by
  refine moveColumns_moveColumns hv (fun c hc _ _ => Nat.mod_lt _ (Nat.zero_lt_of_lt hc)) fun c hc shift hs => ?_
  calc ((c + shift) % v.length + v.length - shift) % v.length
      = (c + shift + (v.length - shift)) % v.length := by rw [Nat.add_sub_assoc hs.le, Nat.mod_add_mod]
    _ = (c + v.length) % v.length := by congr 1; omega
    _ = c := by rw [Nat.add_mod_right, Nat.mod_eq_of_lt hc]

theorem shiftRows_invShiftRows {v : Block} (hv : v.length ∈ [2, 4, 8]) : shiftRows (invShiftRows v) = v := by
  refine moveColumns_moveColumns hv (fun c hc _ _ => Nat.mod_lt _ (Nat.zero_lt_of_lt hc)) fun c hc shift hs => ?_
  calc ((c + v.length - shift) % v.length + shift) % v.length
      = (c + v.length - shift + shift) % v.length := by rw [Nat.mod_add_mod]
    _ = (c + v.length) % v.length := by congr 1; omega
    _ = c := by rw [Nat.add_mod_right, Nat.mod_eq_of_lt hc]

end Sys2Proof.Machine
end

section
/-! PROOFS. The diffusion layer (spec/44_diffusion.md rules R90 to R93): a column is multiplied by a matrix over
GF(2^8), so the two layers undo each other because the product of their matrices is the identity. -/

namespace Sys2Proof.Machine

/-! ### Sums of bytes -/

/-- The sum, in GF(2^8), of `f b` over `b` in `l`. -/
def xorSum (l : List (Fin 8)) (f : Fin 8 → Byte) : Byte := l.foldr (fun b acc => f b ^^^ acc) 0#8

theorem xorSum_cons (b : Fin 8) (l : List (Fin 8)) (f : Fin 8 → Byte) :
    xorSum (b :: l) f = f b ^^^ xorSum l f := rfl

theorem xorSum_xor (l : List (Fin 8)) (f g : Fin 8 → Byte) :
    (xorSum l fun b => f b ^^^ g b) = xorSum l f ^^^ xorSum l g := by
  induction l with
  | nil => exact BitVec.xor_zero.symm
  | cons b l ih =>
    rw [xorSum_cons, xorSum_cons, xorSum_cons, ih]
    ac_rfl

theorem XorAdditive.map_xorSum {g : Byte → Byte} (hg : XorAdditive g) (l : List (Fin 8)) (f : Fin 8 → Byte) :
    g (xorSum l f) = xorSum l fun b => g (f b) := by
  induction l with
  | nil => exact hg.map_zero
  | cons b l ih => rw [xorSum_cons, xorSum_cons, hg, ih]

theorem xorSum_comm (l l' : List (Fin 8)) (f : Fin 8 → Fin 8 → Byte) :
    (xorSum l fun k => xorSum l' fun b => f k b) = xorSum l' fun b => xorSum l fun k => f k b := by
  induction l with
  | nil => exact XorAdditive.map_xorSum (g := fun _ => 0#8) (fun _ _ => BitVec.xor_zero.symm) l' fun _ => 0#8
  | cons k l ih => simp only [xorSum_cons, xorSum_xor, ih]

/-- A sum with one term that is not 0. -/
theorem xorSum_ite (row : Fin 8) (x : Byte) {l : List (Fin 8)} (nodup : l.Nodup) :
    (xorSum l fun b => if row = b then x else 0#8) = if row ∈ l then x else 0#8 := by
  induction l with
  | nil => rfl
  | cons b l ih =>
    rw [xorSum_cons, ih nodup.of_cons]
    by_cases here : row = b
    · subst here
      simp [nodup.notMem]
    · simp [here]

/-! ### The product of two matrices -/

/-- The multiplication is associative on the monomials, so it is associative. -/
theorem gfMul_assoc (a b c : Byte) : gfMul (gfMul a b) c = gfMul a (gfMul b c) := by
  have monomials : ∀ i < 8, ∀ j < 8, ∀ k < 8,
      gfMul (gfMul (BitVec.twoPow 8 i) (BitVec.twoPow 8 j)) (BitVec.twoPow 8 k)
        = gfMul (BitVec.twoPow 8 i) (gfMul (BitVec.twoPow 8 j) (BitVec.twoPow 8 k)) := by decide +kernel
  obtain ⟨left, right⟩ := gfMul_biadditive
  have product_first : XorBiadditive fun a b => gfMul (gfMul a b) c :=
    ⟨fun b => (left c).comp (left b), fun a => (left c).comp (right a)⟩
  have product_last : XorBiadditive fun a b => gfMul a (gfMul b c) :=
    ⟨fun b => left (gfMul b c), fun a => (right a).comp (left c)⟩
  exact product_first.ext product_last
    (fun i hi j hj => (right _).ext ((right _).comp (right _)) (monomials i hi j hj) c) a b

theorem columnByte_eq_xorSum (m : Fin 8 → Fin 8 → Byte) (w : Word) (row : Fin 8) :
    columnByte m w row.val = xorSum (List.finRange 8) fun b => gfMul (byteOf w b.val) (m row b) := by
  rw [columnByte, ← List.foldl_map, List.foldl_eq_foldr, List.foldr_map, Fin.ofNat_val_eq_self]
  rfl

theorem byteOf_mixColumn (m : Fin 8 → Fin 8 → Byte) (w : Word) (row : Fin 8) :
    byteOf (mixColumn m w) row.val = xorSum (List.finRange 8) fun b => gfMul (byteOf w b.val) (m row b) :=
  (byteOf_ofBytes _ row.isLt).trans (columnByte_eq_xorSum m w row)

/-- Multiplying a column by `m` and then by `m'` gives it back where the product of the matrices is the identity. -/
theorem mixColumn_leftInverse {m m' : Fin 8 → Fin 8 → Byte}
    (product : ∀ row col,
      (xorSum (List.finRange 8) fun k => gfMul (m' row k) (m k col)) = if row = col then 1#8 else 0#8) :
    Function.LeftInverse (mixColumn m') (mixColumn m) := fun w => by
  refine word_ext_byteOf fun j hj => ?_
  obtain ⟨row, rfl⟩ : ∃ row : Fin 8, row.val = j := ⟨⟨j, hj⟩, rfl⟩
  calc byteOf (mixColumn m' (mixColumn m w)) row
      = xorSum (List.finRange 8) fun k =>
          gfMul (xorSum (List.finRange 8) fun b => gfMul (byteOf w b) (m k b)) (m' row k) := by
        simp only [byteOf_mixColumn]
    _ = xorSum (List.finRange 8) fun k => xorSum (List.finRange 8) fun b =>
          gfMul (byteOf w b) (gfMul (m' row k) (m k b)) := by
        simp only [(gfMul_biadditive.left _).map_xorSum, gfMul_assoc, gfMul_comm (m' row _)]
    _ = xorSum (List.finRange 8) fun b =>
          gfMul (byteOf w b) (xorSum (List.finRange 8) fun k => gfMul (m' row k) (m k b)) := by
        simp only [xorSum_comm _ _ fun k b => gfMul (byteOf w b) _, (gfMul_biadditive.right _).map_xorSum]
    _ = xorSum (List.finRange 8) fun b => if row = b then byteOf w row else 0#8 := by
        refine congrArg _ (funext fun b => ?_)
        rw [product]
        split_ifs with diagonal
        · rw [diagonal, gfMul_one]
        · exact gfMul_zero _
    _ = byteOf w row := by
        rw [xorSum_ite row _ (List.nodup_finRange 8), if_pos (List.mem_finRange row)]

/-- MDS_INV times MDS is the identity (R93). -/
theorem mdsInv_mul_mds (row col : Fin 8) :
    (xorSum (List.finRange 8) fun k => gfMul (tables.mdsInv row k) (tables.mds k col))
      = if row = col then 1#8 else 0#8 := by
  decide +kernel +revert

/-- MDS times MDS_INV is the identity (R93). -/
theorem mds_mul_mdsInv (row col : Fin 8) :
    (xorSum (List.finRange 8) fun k => gfMul (tables.mds row k) (tables.mdsInv k col))
      = if row = col then 1#8 else 0#8 := by
  decide +kernel +revert

theorem invMixColumns_mixColumns (v : Block) : invMixColumns tables (mixColumns tables v) = v :=
  map_map_of_leftInverse (mixColumn_leftInverse mdsInv_mul_mds) v

theorem mixColumns_invMixColumns (v : Block) : mixColumns tables (invMixColumns tables v) = v :=
  map_map_of_leftInverse (mixColumn_leftInverse mds_mul_mdsInv) v

end Sys2Proof.Machine
end

section
/-! PROOFS. Word operators and rounds (spec/45_key_injection.md rule R100, spec/46_round.md rule R111): the operators
undo each other word by word, and a round is undone layer by layer. -/

namespace Sys2Proof.Machine

/-! ### Word operators -/

/-- Word-wise operators undo each other where the operators on words do. -/
theorem zipWith_zipWith_cancel {f g : Word → Word → Word} (h : ∀ x y, g (f x y) y = x) {v k : Block}
    (hlen : v.length = k.length) : List.zipWith g (List.zipWith f v k) k = v := by
  induction v generalizing k with
  | nil => rfl
  | cons x v ih =>
    cases k with
    | nil => cases hlen
    | cons y k => rw [List.zipWith_cons_cons, List.zipWith_cons_cons, h, ih (Nat.succ.inj hlen)]

section WordOperators

variable {v k : Block} (h : v.length = k.length)
include h

theorem subW_addW : subW (addW v k) k = v := zipWith_zipWith_cancel BitVec.add_sub_cancel h

theorem addW_subW : addW (subW v k) k = v := zipWith_zipWith_cancel BitVec.sub_add_cancel h

theorem xorW_xorW : xorW (xorW v k) k = v :=
  zipWith_zipWith_cancel (fun x y => by rw [BitVec.xor_assoc, BitVec.xor_self, BitVec.xor_zero]) h

end WordOperators

/-! ### Rounds -/

theorem decRound_encRound {v : Block} (hv : v.length ∈ [2, 4, 8]) : decRound tables (encRound tables v) = v := by
  rw [decRound, encRound, invMixColumns_mixColumns, invShiftRows_shiftRows (by simpa using hv), invSubBytes_subBytes]

theorem encRound_decRound {v : Block} (hv : v.length ∈ [2, 4, 8]) : encRound tables (decRound tables v) = v := by
  rw [encRound, decRound, subBytes_invSubBytes, shiftRows_invShiftRows (by simpa using hv), mixColumns_invMixColumns]

end Sys2Proof.Machine
end

section
/-! PROOFS. The commands that rewrite ST (spec/42_substitution.md rules R66 and R67, and their like): on a loaded
state such a command applies a function to ST[0..nb-1] and leaves the rest, so what a sequence of them does is said by
the functions alone. -/

namespace Sys2Proof.Machine

/-! ### Writing ST -/

section WriteSt

variable {s : State} (hs : s.Ready)
include hs

theorem mem_legalRows_of_ready : (s.nb, s.nk, s.nr) ∈ legalRows := by
  obtain ⟨-, -, hrow⟩ := hs
  exact hrow

theorem nb_le_eight : s.nb.toNat ≤ 8 := by
  obtain ⟨-, le, small, -⟩ := bounds_of_mem_legalRows (mem_legalRows_of_ready hs)
  exact le.trans small

theorem length_stBlock : s.stBlock.length = s.nb.toNat := by
  simp [State.stBlock, nb_le_eight hs]

theorem length_auxBlock : s.auxBlock.length = s.nb.toNat := by
  simp [State.auxBlock, nb_le_eight hs]

theorem stBlock_writeSt {b : Block} (hb : b.length = s.nb.toNat) : (writeSt b s).stBlock = b := by
  rw [State.stBlock, writeSt_st, writeSt_nb, ← hb]
  exact readBlock_writeBlock s.st b (hb ▸ nb_le_eight hs)

/-- A block of `nb` words written to ST replaces the words `0..nb-1` and no other. -/
theorem wordAt_writeSt {b : Block} (hb : b.length = s.nb.toNat) (i : Nat) :
    wordAt (writeSt b s).st i = if i < s.nb.toNat then b.getD i 0#64 else wordAt s.st i := by
  rw [writeSt_st, ← hb]
  rcases Nat.lt_or_ge i 8 with hi | hi
  · exact wordAt_writeBlock s.st b hi
  · have beyond : ¬ i < b.length := by
      have := nb_le_eight hs
      omega
    rw [if_neg beyond, wordAt_of_ge _ hi, wordAt_of_ge _ hi]

end WriteSt

theorem getD_stBlock (s : State) {i : Nat} (hi : i < s.nb.toNat) : s.stBlock.getD i 0#64 = wordAt s.st i :=
  getD_readBlock s.st hi

@[simp] theorem writeSt_stBlock (s : State) : writeSt s.stBlock s = s := by
  rw [writeSt, State.stBlock, writeBlock_readBlock]

theorem writeSt_writeSt {b c : Block} (h : b.length = c.length) (s : State) :
    writeSt c (writeSt b s) = writeSt c s := by
  rw [writeSt, writeSt_st, writeBlock_writeBlock _ _ _ h]
  rfl

/-! ### Commands as functions on the block -/

/-- The command `i` applies `f` to ST[0..nb-1] and does nothing else, whatever block of `nb` words stands there in
`s`. -/
structure ActsOnSt (i : Instr) (f : Block → Block) (s : State) : Prop where
  length : ∀ b : Block, b.length = s.nb.toNat → (f b).length = s.nb.toNat
  answer : ∀ b : Block, b.length = s.nb.toNat → exec i (writeSt b s) = .next (writeSt (f b) s)

theorem ActsOnSt.exec_eq {i : Instr} {f : Block → Block} {s : State} (hi : ActsOnSt i f s) (hs : s.Ready) :
    exec i s = .next (writeSt (f s.stBlock) s) := by
  simpa using hi.answer s.stBlock (length_stBlock hs)

/-- What the rules say of such a command: the words `0..nb-1` are those of the result, and everything else stays. -/
theorem ActsOnSt.exists_next {i : Instr} {f : Block → Block} {s : State} (hi : ActsOnSt i f s) (hs : s.Ready) :
    ∃ t, exec i s = .next t ∧ t = { s with st := t.st } ∧
      (∀ k < s.nb.toNat, wordAt t.st k = (f s.stBlock).getD k 0#64) ∧
      ∀ k, s.nb.toNat ≤ k → wordAt t.st k = wordAt s.st k := by
  have word := wordAt_writeSt hs (hi.length _ (length_stBlock hs))
  exact ⟨_, hi.exec_eq hs, rfl, fun k hk => (word k).trans (if_pos hk),
    fun k hk => (word k).trans (if_neg (Nat.not_lt.mpr hk))⟩

/-- No check of R152 looks into the words of ST. -/
theorem executes_writeSt (i : Instr) (b : Block) (s : State) : executes i (writeSt b s) = executes i s := by
  cases i <;> rfl

theorem executes_of_ready {i : Instr} {s : State} (hs : s.Ready) (parameters : parametersLegal i = true)
    (indices : indicesInRange s i = true) (operands : operandsWritten s i = true) : executes i s = true := by
  obtain ⟨noError, context, -⟩ := hs
  exact (executes_iff i s).mpr ⟨.inr noError, parameters, .inr context, indices, operands⟩

/-- A command that executes in `s`, and whose effect is to write a function of the block, acts by that function. -/
theorem actsOnSt_of_effect {i : Instr} {f : Block → Block} {s : State} (hs : s.Ready) (runs : executes i s = true)
    (length : ∀ b : Block, b.length = s.nb.toNat → (f b).length = s.nb.toNat)
    (writes : ∀ b : Block, effect i (writeSt b s) = writeSt (f (writeSt b s).stBlock) (writeSt b s)) :
    ActsOnSt i f s where
  length := length
  answer b hb := by
    have sameLength : b.length = (f b).length := by rw [hb, length b hb]
    rw [exec_of_executes ((executes_writeSt i b s).trans runs), writes, stBlock_writeSt hs hb,
      writeSt_writeSt sameLength]

/-! ### The layer and round commands -/

section Layers

variable {s : State} (hs : s.Ready) (hl : s.StLoaded)
include hs hl

/-- A command whose one operand is the loaded state. -/
theorem actsOnSt_of_loaded {i : Instr} {f : Block → Block} (parameters : parametersLegal i = true)
    (indices : indicesInRange s i = true) (operands : operandsWritten s i = allValid s.stv s.nb.toNat)
    (length : ∀ b, (f b).length = b.length)
    (writes : ∀ b : Block, effect i (writeSt b s) = writeSt (f (writeSt b s).stBlock) (writeSt b s)) :
    ActsOnSt i f s := by
  have loaded := (allValid_iff s.stv s.nb.toNat).mpr hl
  exact actsOnSt_of_effect hs (executes_of_ready hs parameters indices (operands.trans loaded))
    (fun b hb => (length b).trans hb) writes

theorem actsOnSt_subb : ActsOnSt .subb (subBytes tables) s :=
  actsOnSt_of_loaded hs hl rfl rfl rfl (length_subBytes tables) fun _ => rfl

theorem actsOnSt_isubb : ActsOnSt .isubb (invSubBytes tables) s :=
  actsOnSt_of_loaded hs hl rfl rfl rfl (length_invSubBytes tables) fun _ => rfl

theorem actsOnSt_shrow : ActsOnSt .shrow shiftRows s :=
  actsOnSt_of_loaded hs hl rfl rfl rfl length_shiftRows fun _ => rfl

theorem actsOnSt_ishrow : ActsOnSt .ishrow invShiftRows s :=
  actsOnSt_of_loaded hs hl rfl rfl rfl length_invShiftRows fun _ => rfl

theorem actsOnSt_mixcol : ActsOnSt .mixcol (mixColumns tables) s :=
  actsOnSt_of_loaded hs hl rfl rfl rfl (length_mixColumns tables) fun _ => rfl

theorem actsOnSt_imixcol : ActsOnSt .imixcol (invMixColumns tables) s :=
  actsOnSt_of_loaded hs hl rfl rfl rfl (length_invMixColumns tables) fun _ => rfl

theorem actsOnSt_eround : ActsOnSt .eround (encRound tables) s :=
  actsOnSt_of_loaded hs hl rfl rfl rfl (length_encRound tables) fun _ => rfl

theorem actsOnSt_dround : ActsOnSt .dround (decRound tables) s :=
  actsOnSt_of_loaded hs hl rfl rfl rfl (length_decRound tables) fun _ => rfl

end Layers

/-- Settles O45: the words that SUBB and ISUBB write have the bytes that the layers give them. -/
theorem subbAndIsubbSubstituteEveryByte : Obligations.SubbAndIsubbSubstituteEveryByte := by
  intro s hs hl
  have inBlock {i : Nat} (hi : i < s.nb.toNat) : i < s.stBlock.length := by rwa [length_stBlock hs]
  obtain ⟨t, subb, frame, words, others⟩ := (actsOnSt_subb hs hl).exists_next hs
  obtain ⟨u, isubb, frame', words', others'⟩ := (actsOnSt_isubb hs hl).exists_next hs
  refine ⟨⟨t, subb, frame, fun i hi j hj => ?forward, others⟩,
    ⟨u, isubb, frame', fun i hi j hj => ?inverse, others'⟩⟩
  case forward => rw [words i hi, byteOf_subBytes _ _ (inBlock hi) hj, getD_stBlock s hi]
  case inverse => rw [words' i hi, byteOf_invSubBytes _ _ (inBlock hi) hj, sbox_sboxInv, getD_stBlock s hi]

end Sys2Proof.Machine
end

section
/-! PROOFS. Inverse stage commands (corner cases of spec/42_substitution.md R67, spec/43_row_shift.md R83,
spec/44_diffusion.md R95, spec/45_key_injection.md R102, R103 and R105, spec/46_round.md R113): two commands undo each
other where their functions on the block do. -/

namespace Sys2Proof.Machine

/-! ### The injection commands -/

section Injections

variable {s : State} (hs : s.Ready) (hl : s.StLoaded)
include hs hl

section RoundKey

variable {r : Nat} (hr : r ≤ s.nr.toNat) (hk : flagAt s.rkv r = true)
include hr hk

/-- A command that combines the loaded state with round key `r` word by word. -/
theorem actsOnSt_of_roundKey {i : Instr} {op : Block → Block → Block} (parameters : parametersLegal i = true)
    (indices : indicesInRange s i = decide (r ≤ s.nr.toNat))
    (operands : operandsWritten s i = (allValid s.stv s.nb.toNat && flagAt s.rkv r))
    (length : ∀ v k, (op v k).length = min v.length k.length)
    (writes : ∀ t : State, effect i t = writeSt (op t.stBlock (t.roundKey r)) t) :
    ActsOnSt i (op · (s.roundKey r)) s := by
  have loaded := (allValid_iff s.stv s.nb.toNat).mpr hl
  refine actsOnSt_of_effect hs (executes_of_ready hs parameters ?_ ?_) (fun b hb => ?_) fun b => writes (writeSt b s)
  · rw [indices, decide_eq_true hr]
  · rw [operands, loaded, hk, Bool.and_self]
  · rw [length, hb, length_roundKey (mem_legalRows_of_ready hs), Nat.min_self]

theorem actsOnSt_addrk : ActsOnSt (.addrk r) (addW · (s.roundKey r)) s :=
  actsOnSt_of_roundKey hs hl hr hk rfl rfl rfl length_addW fun _ => rfl

theorem actsOnSt_subrk : ActsOnSt (.subrk r) (subW · (s.roundKey r)) s :=
  actsOnSt_of_roundKey hs hl hr hk rfl rfl rfl length_subW fun _ => rfl

theorem actsOnSt_xorrk : ActsOnSt (.xorrk r) (xorW · (s.roundKey r)) s :=
  actsOnSt_of_roundKey hs hl hr hk rfl rfl rfl length_xorW fun _ => rfl

end RoundKey

theorem actsOnSt_xorx (ha : s.AuxLoaded) : ActsOnSt .xorx (xorW · s.auxBlock) s := by
  have loaded := (allValid_iff s.stv s.nb.toNat).mpr hl
  have auxLoaded := (allValid_iff s.auxv s.nb.toNat).mpr ha
  refine actsOnSt_of_effect hs (executes_of_ready hs rfl rfl ?_) (fun b hb => ?_) fun _ => rfl
  · rw [operandsWritten, loaded, auxLoaded, Bool.and_self]
  · rw [length_xorW, hb, length_auxBlock hs, Nat.min_self]

end Injections

/-! ### Sequences of commands -/

/-- A command in a sequence hands on the block that its function gives. -/
theorem ActsOnSt.execAll_cons {i : Instr} {f : Block → Block} {s : State} (hi : ActsOnSt i f s) (rest : List Instr)
    {b : Block} (hb : b.length = s.nb.toNat) : execAll (i :: rest) (writeSt b s) = execAll rest (writeSt (f b) s) := by
  rw [execAll, hi.answer b hb]

/-- Two commands whose functions undo each other answer the state they began in. -/
theorem execAll_pair_of_undo {i j : Instr} {f g : Block → Block} {s : State} (hs : s.Ready) (hi : ActsOnSt i f s)
    (hj : ActsOnSt j g s) (undo : ∀ b : Block, b.length = s.nb.toNat → g (f b) = b) : execAll [i, j] s = .next s := by
  have hb := length_stBlock hs
  calc execAll [i, j] s
      = execAll [i, j] (writeSt s.stBlock s) := by rw [writeSt_stBlock]
    _ = execAll [] (writeSt (g (f s.stBlock)) s) := by rw [hi.execAll_cons _ hb, hj.execAll_cons _ (hi.length _ hb)]
    _ = .next s := by rw [undo _ hb, writeSt_stBlock, execAll]

/-- Settles O53: every pair of commands acts on the block by functions that undo each other. -/
theorem inverseStageCommandsUndoEachOther : Obligations.InverseStageCommandsUndoEachOther := by
  intro s r hs hl
  have hrow := mem_legalRows_of_ready hs
  have legal {b : Block} (hb : b.length = s.nb.toNat) : b.length ∈ [2, 4, 8] := hb ▸ nb_mem_of_mem_legalRows hrow
  have subb := actsOnSt_subb hs hl
  have isubb := actsOnSt_isubb hs hl
  have shrow := actsOnSt_shrow hs hl
  have ishrow := actsOnSt_ishrow hs hl
  have mixcol := actsOnSt_mixcol hs hl
  have imixcol := actsOnSt_imixcol hs hl
  have eround := actsOnSt_eround hs hl
  have dround := actsOnSt_dround hs hl
  refine ⟨⟨?_, ?_, ?_, ?_, ?_, ?_, ?_, ?_⟩, fun hr hk => ?roundKey, fun ha => ?aux⟩
  · exact execAll_pair_of_undo hs subb isubb fun b _ => invSubBytes_subBytes b
  · exact execAll_pair_of_undo hs isubb subb fun b _ => subBytes_invSubBytes b
  · exact execAll_pair_of_undo hs shrow ishrow fun _ hb => invShiftRows_shiftRows (legal hb)
  · exact execAll_pair_of_undo hs ishrow shrow fun _ hb => shiftRows_invShiftRows (legal hb)
  · exact execAll_pair_of_undo hs mixcol imixcol fun b _ => invMixColumns_mixColumns b
  · exact execAll_pair_of_undo hs imixcol mixcol fun b _ => mixColumns_invMixColumns b
  · exact execAll_pair_of_undo hs eround dround fun _ hb => decRound_encRound (legal hb)
  · exact execAll_pair_of_undo hs dround eround fun _ hb => encRound_decRound (legal hb)
  case roundKey =>
    have sameLength {b : Block} (hb : b.length = s.nb.toNat) : b.length = (s.roundKey r).length :=
      hb.trans (length_roundKey hrow r).symm
    have addrk := actsOnSt_addrk hs hl hr hk
    have subrk := actsOnSt_subrk hs hl hr hk
    have xorrk := actsOnSt_xorrk hs hl hr hk
    exact ⟨execAll_pair_of_undo hs addrk subrk fun _ hb => subW_addW (sameLength hb),
      execAll_pair_of_undo hs subrk addrk fun _ hb => addW_subW (sameLength hb),
      execAll_pair_of_undo hs xorrk xorrk fun _ hb => xorW_xorW (sameLength hb)⟩
  case aux =>
    have xorx := actsOnSt_xorx hs hl ha
    exact execAll_pair_of_undo hs xorx xorx fun _ hb => xorW_xorW (hb.trans (length_auxBlock hs).symm)

end Sys2Proof.Machine
end

section
/-! PROOFS. The row shift byte by byte, and the commands SHROW and ISHROW (spec/43_row_shift.md rules R80 to R83): where
InvShiftRows takes a byte from is its definition, and where ShiftRows puts one follows, because InvShiftRows takes it
back from there. -/

namespace Sys2Proof.Machine

section RowShiftLayers

variable {v : Block} {c r : Nat} (hc : c < v.length) (hr : r < 8)
include hc hr

theorem byteOf_invShiftRows :
    byteOf ((invShiftRows v).getD c 0#64) r = byteOf (v.getD ((c + rowShift v.length r) % v.length) 0#64) r :=
  byteOf_moveColumns _ v hc hr

theorem byteOf_shiftRows (hv : v.length ∈ [2, 4, 8]) :
    byteOf ((shiftRows v).getD ((c + rowShift v.length r) % v.length) 0#64) r = byteOf (v.getD c 0#64) r := by
  have takenBack := byteOf_invShiftRows (v := shiftRows v) (by rwa [length_shiftRows]) hr
  rw [invShiftRows_shiftRows hv, length_shiftRows] at takenBack
  exact takenBack.symm

end RowShiftLayers

/-- Settles O29: each byte moves to its column or back, the lengths stay, and the layers undo each other. -/
theorem rowShiftMovesEachByteAndIsInvertible : Obligations.RowShiftMovesEachByteAndIsInvertible := fun v hv =>
  ⟨fun _ hr _ hc => ⟨byteOf_shiftRows hc hr hv, byteOf_invShiftRows hc hr⟩, length_shiftRows v, length_invShiftRows v,
    invShiftRows_shiftRows hv, shiftRows_invShiftRows hv⟩

/-- Settles O46: SHROW and ISHROW write the words of the layers, whose bytes come from the columns of ST. -/
theorem shrowAndIshrowMoveEveryByte : Obligations.ShrowAndIshrowMoveEveryByte := by
  intro s hs hl
  have len := length_stBlock hs
  have legal : s.stBlock.length ∈ [2, 4, 8] := len ▸ nb_mem_of_mem_legalRows (mem_legalRows_of_ready hs)
  have inBlock {c : Nat} (hc : c < s.nb.toNat) : c < s.stBlock.length := by rwa [len]
  have shifted {c : Nat} (hc : c < s.nb.toNat) (r : Nat) : (c + rowShift s.nb.toNat r) % s.nb.toNat < s.nb.toNat :=
    Nat.mod_lt _ (Nat.zero_lt_of_lt hc)
  obtain ⟨t, shrow, frame, words, others⟩ := (actsOnSt_shrow hs hl).exists_next hs
  obtain ⟨u, ishrow, frame', words', others'⟩ := (actsOnSt_ishrow hs hl).exists_next hs
  refine ⟨⟨t, shrow, frame, fun r hr c hc => ?forward, others⟩,
    ⟨u, ishrow, frame', fun r hr c hc => ?inverse, others'⟩⟩
  case forward =>
    have moved := byteOf_shiftRows (inBlock hc) hr legal
    rwa [len, ← words _ (shifted hc r), getD_stBlock s hc] at moved
  case inverse =>
    have moved := byteOf_invShiftRows (inBlock hc) hr
    rwa [len, ← words' c hc, getD_stBlock s (shifted hc r)] at moved

end Sys2Proof.Machine
end

section
/-! PROOFS. The diffusion layer byte by byte, its matrices, and the commands MIXCOL and IMIXCOL (spec/44_diffusion.md
rules R90 to R95): both layers multiply every column by a matrix, so what a byte of the product is, and what a command
that multiplies does, is said once for every matrix. -/

namespace Sys2Proof.Machine

theorem byteOf_map_mixColumn (m : Fin 8 → Fin 8 → Byte) (v : Block) {c : Nat} (hc : c < v.length) (row : Fin 8) :
    byteOf ((v.map (mixColumn m)).getD c 0#64) row.val
      = xorSum (List.finRange 8) fun b => gfMul (byteOf (v.getD c 0#64) b.val) (m row b) := by
  rw [getD_map_of_lt _ v hc, byteOf_mixColumn]

/-- A command that multiplies the columns of ST by `m` writes the products into the words `0..nb-1`, and everything else
stays. -/
theorem ActsOnSt.exists_next_of_mixColumn {i : Instr} {m : Fin 8 → Fin 8 → Byte} {s : State}
    (hi : ActsOnSt i (List.map (mixColumn m)) s) (hs : s.Ready) :
    ∃ t, exec i s = .next t ∧ t = { s with st := t.st } ∧
      (∀ c < s.nb.toNat, ∀ row : Fin 8, byteOf (wordAt t.st c) row.val
        = xorSum (List.finRange 8) fun b => gfMul (byteOf (wordAt s.st c) b.val) (m row b)) ∧
      ∀ k, s.nb.toNat ≤ k → wordAt t.st k = wordAt s.st k := by
  obtain ⟨t, runs, frame, words, others⟩ := hi.exists_next hs
  refine ⟨t, runs, frame, fun c hc row => ?_, others⟩
  have inBlock : c < s.stBlock.length := by rwa [length_stBlock hs]
  rw [words c hc, byteOf_map_mixColumn m _ inBlock, getD_stBlock s hc]

/-- MDS is the circulant matrix of its first row (R92). -/
theorem mds_circulant (row col : Fin 8) : tables.mds row col = tables.mds 0 (col - row) := by
  decide +kernel +revert

/-- MDS_INV is the circulant matrix of its first row (R93). -/
theorem mdsInv_circulant (row col : Fin 8) : tables.mdsInv row col = tables.mdsInv 0 (col - row) := by
  decide +kernel +revert

/-- Settles O30: a byte of either layer is the product for that layer's matrix, and the layers undo each other because
the product of the two matrices is the identity. -/
theorem diffusionIsTheMatrixProductAndIsInvertible : Obligations.DiffusionIsTheMatrixProductAndIsInvertible :=
  ⟨fun T v _ row hc => ⟨byteOf_map_mixColumn T.mds v hc row, byteOf_map_mixColumn T.mdsInv v hc row⟩,
    fun v => ⟨invMixColumns_mixColumns v, mixColumns_invMixColumns v⟩⟩

/-- Settles O31: the first rows are read off the printed tables, whose other rows are rotations of them. -/
theorem matricesAreCirculantAndInverse : Obligations.MatricesAreCirculantAndInverse :=
  ⟨by decide +kernel, by decide +kernel, fun row col =>
    ⟨mds_circulant row col, mdsInv_circulant row col, mds_mul_mdsInv row col, mdsInv_mul_mds row col⟩⟩

/-- Settles O47: MIXCOL multiplies the columns of ST by MDS, and IMIXCOL by MDS_INV. -/
theorem mixcolAndImixcolMultiplyEveryColumn : Obligations.MixcolAndImixcolMultiplyEveryColumn := fun _ hs hl =>
  ⟨(actsOnSt_mixcol hs hl).exists_next_of_mixColumn hs, (actsOnSt_imixcol hs hl).exists_next_of_mixColumn hs⟩

end Sys2Proof.Machine
end

section
/-! PROOFS. Key injection (spec/45_key_injection.md rules R100 to R105): a word of the operators' result is the
operation on the two words at its index, and so is a word of ST after a command that injects the words of a register
file. -/

namespace Sys2Proof.Machine

/-! ### Word operators -/

theorem getD_zipWith_of_lt (f : Word → Word → Word) {v k : Block} {i : Nat} (hv : i < v.length) (hk : i < k.length) :
    (List.zipWith f v k).getD i 0#64 = f (v.getD i 0#64) (k.getD i 0#64) := by
  simp [hv, hk]

/-- The difference of two words is that of their values as integers, modulo 2^64. -/
theorem toNat_sub_eq_emod (x y : Word) : ((x - y).toNat : Int) = ((x.toNat : Int) - (y.toNat : Int)) % 2 ^ 64 := by
  have hy := y.isLt
  rw [BitVec.toNat_sub]
  omega

/-- Settles O32: a word of the result is the operation on the words at its index, whose value is that of the sum or the
difference modulo 2^64, and the operators undo each other as the operations on words do. -/
theorem wordOperatorsActOnEachWordAndUndoEachOther : Obligations.WordOperatorsActOnEachWordAndUndoEachOther := by
  intro v k sameLength
  refine ⟨fun i hv => ?words, subW_addW sameLength, addW_subW sameLength, xorW_xorW sameLength⟩
  have hk : i < k.length := sameLength ▸ hv
  refine ⟨?sum, ?difference, getD_zipWith_of_lt _ hv hk⟩
  case sum => rw [addW, getD_zipWith_of_lt _ hv hk, BitVec.toNat_add]
  case difference => rw [subW, getD_zipWith_of_lt _ hv hk, toNat_sub_eq_emod]

/-! ### Commands -/

/-- A command that combines the block of ST word by word with that of the register file `x` gives each of the words
`0..nb-1` the word of `x` at its index, and everything else stays. -/
theorem ActsOnSt.exists_next_of_zipWith {i : Instr} {f : Word → Word → Word} {x : Vector Word 8} {s : State}
    (hi : ActsOnSt i (List.zipWith f · (readBlock x s.nb.toNat)) s) (hs : s.Ready) :
    ∃ t, exec i s = .next t ∧ t = { s with st := t.st } ∧ ∀ k, wordAt t.st k =
      (if k < s.nb.toNat then f (wordAt s.st k) (wordAt x k) else wordAt s.st k) := by
  obtain ⟨t, runs, frame, words, others⟩ := hi.exists_next hs
  refine ⟨t, runs, frame, fun k => ?_⟩
  split
  case isTrue hk =>
    have inState : k < s.stBlock.length := by rwa [length_stBlock hs]
    have inOperand : k < (readBlock x s.nb.toNat).length := by
      rwa [length_readBlock, Nat.min_eq_left (nb_le_eight hs)]
    rw [words k hk, getD_zipWith_of_lt f inState inOperand, getD_stBlock s hk, getD_readBlock x hk]
  case isFalse hk => exact others k (Nat.not_lt.mp hk)

theorem actsOnSt_addx {s : State} (hs : s.Ready) (hl : s.StLoaded) (ha : s.AuxLoaded) :
    ActsOnSt .addx (addW · s.auxBlock) s := by
  have loaded := (allValid_iff s.stv s.nb.toNat).mpr hl
  have auxLoaded := (allValid_iff s.auxv s.nb.toNat).mpr ha
  refine actsOnSt_of_effect hs (executes_of_ready hs rfl rfl ?_) (fun b hb => ?_) fun _ => rfl
  · rw [operandsWritten, loaded, auxLoaded, Bool.and_self]
  · rw [length_addW, hb, length_auxBlock hs, Nat.min_self]

/-- Settles O49: each of the three commands combines ST word by word with the entry of RK it names. -/
theorem roundKeyInjectionActsWordByWord : Obligations.RoundKeyInjectionActsWordByWord := fun _ _ hs hl hr hk =>
  ⟨(actsOnSt_addrk hs hl hr hk).exists_next_of_zipWith hs, (actsOnSt_subrk hs hl hr hk).exists_next_of_zipWith hs,
    (actsOnSt_xorrk hs hl hr hk).exists_next_of_zipWith hs⟩

/-- Settles O50: both commands combine ST word by word with AUX. -/
theorem auxInjectionActsWordByWord : Obligations.AuxInjectionActsWordByWord := fun _ hs hl ha =>
  ⟨(actsOnSt_addx hs hl ha).exists_next_of_zipWith hs, (actsOnSt_xorx hs hl ha).exists_next_of_zipWith hs⟩

end Sys2Proof.Machine
end

section
/-! PROOFS. The rounds and the full block transform (spec/46_round.md rules R110 to R118): Decipher meets the states
that Encipher went through in reverse, and a round or block command applies the function that its sequence of stage
commands does. -/

namespace Sys2Proof.Machine

/-! ### Decipher after Encipher -/

/-- Settles O33: a round and its inverse undo each other, layer by layer. -/
theorem decRoundUndoesEncRound : Obligations.DecRoundUndoesEncRound := fun _ hv =>
  ⟨rfl, decRound_encRound hv, encRound_decRound hv⟩

/-- One inner round of Encipher (R114). -/
def encInnerRound (T : Config.Tables) (rk : Nat → Block) (v : Block) (r : Nat) : Block := xorW (encRound T v) (rk r)

/-- One inner round of Decipher (R115). -/
def decInnerRound (T : Config.Tables) (rk : Nat → Block) (v : Block) (r : Nat) : Block := xorW (decRound T v) (rk r)

theorem encipher_eq_foldl (T : Config.Tables) (rk : Nat → Block) (nr : Nat) (p : Block) :
    encipher T rk nr p
      = addW (encRound T ((innerRounds nr).foldl (encInnerRound T rk) (addW p (rk 0)))) (rk nr) := rfl

theorem decipher_eq_foldl (T : Config.Tables) (rk : Nat → Block) (nr : Nat) (c : Block) :
    decipher T rk nr c
      = subW (decRound T ((innerRounds nr).reverse.foldl (decInnerRound T rk) (subW c (rk nr)))) (rk 0) := rfl

section InnerRounds

variable {n : Nat} {rk : Nat → Block} (hrk : ∀ r, (rk r).length = n)
include hrk

theorem length_encInnerRound (T : Config.Tables) {v : Block} (hv : v.length = n) (r : Nat) :
    (encInnerRound T rk v r).length = n := by
  rw [encInnerRound, length_xorW, length_encRound, hv, hrk, Nat.min_self]

theorem length_foldl_encInnerRound (T : Config.Tables) (rounds : List Nat) {v : Block} (hv : v.length = n) :
    (rounds.foldl (encInnerRound T rk) v).length = n := by
  induction rounds generalizing v with
  | nil => exact hv
  | cons r rounds ih => exact ih (length_encInnerRound hrk T hv r)

variable (hn : n ∈ [2, 4, 8])
include hn

/-- An inner round of Decipher takes the EncRound of an inner round's result back to the EncRound of its operand. -/
theorem decInnerRound_encRound_encInnerRound {v : Block} (hv : v.length = n) (r : Nat) :
    decInnerRound tables rk (encRound tables (encInnerRound tables rk v r)) r = encRound tables v := by
  have legal : (encInnerRound tables rk v r).length ∈ [2, 4, 8] := length_encInnerRound hrk tables hv r ▸ hn
  have sameLength : (encRound tables v).length = (rk r).length := by rw [length_encRound, hv, hrk]
  rw [decInnerRound, decRound_encRound legal, encInnerRound, xorW_xorW sameLength]

/-- So do the inner rounds in descending order, whatever the rounds are. -/
theorem foldl_decInnerRound_encRound (rounds : List Nat) {v : Block} (hv : v.length = n) :
    rounds.reverse.foldl (decInnerRound tables rk) (encRound tables (rounds.foldl (encInnerRound tables rk) v))
      = encRound tables v := by
  induction rounds generalizing v with
  | nil => rfl
  | cons r rounds ih =>
    rw [List.reverse_cons, List.foldl_concat, List.foldl_cons, ih (length_encInnerRound hrk tables hv r),
      decInnerRound_encRound_encInnerRound hrk hn hv]

/-- R118, for any number of rounds. -/
theorem decipher_encipher (nr : Nat) {p : Block} (hp : p.length = n) :
    decipher tables rk nr (encipher tables rk nr p) = p := by
  have whitened : (addW p (rk 0)).length = n := by rw [length_addW, hp, hrk, Nat.min_self]
  have inner := length_foldl_encInnerRound hrk tables (innerRounds nr) whitened
  rw [decipher_eq_foldl, encipher_eq_foldl, subW_addW (by rw [length_encRound, inner, hrk]),
    foldl_decInnerRound_encRound hrk hn _ whitened, decRound_encRound (whitened ▸ hn), subW_addW (by rw [hp, hrk])]

end InnerRounds

/-- Settles O34: every legal block has 2, 4 or 8 words, so each round is undone. -/
theorem decipherUndoesEncipher : Obligations.DecipherUndoesEncipher := fun _ _ _ _ _ hrow hrk hp =>
  decipher_encipher hrk (nb_mem_of_mem_legalRows hrow) _ hp

/-! ### Sequences of commands as functions on the block -/

theorem execAll_append {is : List Instr} {s t : State} (h : execAll is s = .next t) (js : List Instr) :
    execAll (is ++ js) s = execAll js t := by
  induction is generalizing s with
  | nil =>
    cases h
    rfl
  | cons i is ih =>
    obtain ⟨u, hu⟩ := answersNext_exec i s
    rw [execAll, hu] at h
    rw [List.cons_append, execAll, hu]
    exact ih h

/-- The commands `is` one after the other apply `f` to ST[0..nb-1] and do nothing else, whatever block of `nb` words
stands there in `s`. -/
structure AllActOnSt (is : List Instr) (f : Block → Block) (s : State) : Prop where
  length : ∀ b : Block, b.length = s.nb.toNat → (f b).length = s.nb.toNat
  answer : ∀ b : Block, b.length = s.nb.toNat → execAll is (writeSt b s) = .next (writeSt (f b) s)

section Sequences

variable {is js : List Instr} {f g : Block → Block} {s : State}

theorem AllActOnSt.nil : AllActOnSt [] (fun b => b) s := ⟨fun _ hb => hb, fun _ _ => rfl⟩

theorem AllActOnSt.cons {i : Instr} (hi : ActsOnSt i f s) (his : AllActOnSt is g s) :
    AllActOnSt (i :: is) (fun b => g (f b)) s where
  length b hb := his.length _ (hi.length b hb)
  answer b hb := (hi.execAll_cons is hb).trans (his.answer _ (hi.length b hb))

theorem AllActOnSt.append (his : AllActOnSt is f s) (hjs : AllActOnSt js g s) :
    AllActOnSt (is ++ js) (fun b => g (f b)) s where
  length b hb := hjs.length _ (his.length b hb)
  answer b hb := (execAll_append (his.answer b hb) js).trans (hjs.answer _ (his.length b hb))

/-- A loop of commands folds the function of its body. -/
theorem AllActOnSt.flatMap {body : Nat → List Instr} {step : Block → Nat → Block} {rounds : List Nat}
    (h : ∀ r ∈ rounds, AllActOnSt (body r) (fun b => step b r) s) :
    AllActOnSt (rounds.flatMap body) (fun b => rounds.foldl step b) s := by
  induction rounds with
  | nil => exact .nil
  | cons r rounds ih =>
    have first := h r List.mem_cons_self
    have rest := ih fun r' hr' => h r' (List.mem_cons_of_mem r hr')
    exact first.append rest

/-- A command and a sequence that act by the same function answer the same state, which differs from the old one in
ST alone. -/
theorem exists_next_of_same_action {i : Instr} (hs : s.Ready) (hi : ActsOnSt i f s) (his : AllActOnSt is f s) :
    ∃ t, exec i s = .next t ∧ execAll is s = .next t ∧ t = { s with st := t.st } ∧ t.stBlock = f s.stBlock := by
  have hb := length_stBlock hs
  refine ⟨_, hi.exec_eq hs, ?_, rfl, stBlock_writeSt hs (hi.length _ hb)⟩
  simpa using his.answer s.stBlock hb

end Sequences

/-- Settles O48: EncRound and DecRound are the compositions of the three layers' functions. -/
theorem roundCommandsAreTheirThreeLayers : Obligations.RoundCommandsAreTheirThreeLayers := by
  intro s hs hl
  have forward := AllActOnSt.cons (actsOnSt_subb hs hl) <| .cons (actsOnSt_shrow hs hl) <|
    .cons (actsOnSt_mixcol hs hl) .nil
  have inverse := AllActOnSt.cons (actsOnSt_imixcol hs hl) <| .cons (actsOnSt_ishrow hs hl) <|
    .cons (actsOnSt_isubb hs hl) .nil
  exact ⟨exists_next_of_same_action hs (actsOnSt_eround hs hl) forward,
    exists_next_of_same_action hs (actsOnSt_dround hs hl) inverse⟩

/-! ### The block commands -/

/-- The inner rounds come before the last round key. -/
theorem le_of_mem_innerRounds {nr r : Nat} (h : r ∈ innerRounds nr) : r ≤ nr := by
  rw [innerRounds, List.mem_range'_1] at h
  omega

section BlockCommands

variable {s : State} (hs : s.Ready) (hl : s.StLoaded) (hk : s.RkLoaded)
include hs hl hk

/-- A command that transforms the loaded state under the complete round-key table (R116). -/
theorem actsOnSt_of_roundKeys {i : Instr} {f : (Nat → Block) → Nat → Block → Block}
    (parameters : parametersLegal i = true) (indices : indicesInRange s i = true)
    (operands : operandsWritten s i = (allValid s.stv s.nb.toNat && allValid s.rkv (s.nr.toNat + 1)))
    (length : ∀ (rk : Nat → Block) (nr : Nat) (b : Block), (∀ r, (rk r).length = b.length) →
      (f rk nr b).length = b.length)
    (writes : ∀ t : State, effect i t = writeSt (f t.roundKey t.nr.toNat t.stBlock) t) :
    ActsOnSt i (f s.roundKey s.nr.toNat) s := by
  have loaded := (allValid_iff s.stv s.nb.toNat).mpr hl
  have complete := (allValid_iff s.rkv (s.nr.toNat + 1)).mpr fun r hr => hk r (Nat.le_of_lt_succ hr)
  have keyLength := length_roundKey (mem_legalRows_of_ready hs)
  refine actsOnSt_of_effect hs (executes_of_ready hs parameters indices ?_) (fun b hb => ?_)
    fun b => writes (writeSt b s)
  · rw [operands, loaded, complete, Bool.and_self]
  · rw [length _ _ b fun r => (keyLength r).trans hb.symm, hb]

theorem actsOnSt_enc : ActsOnSt .enc (encipher tables s.roundKey s.nr.toNat) s :=
  actsOnSt_of_roundKeys hs hl hk rfl rfl rfl (length_encipher tables) fun _ => rfl

theorem actsOnSt_dec : ActsOnSt .dec (decipher tables s.roundKey s.nr.toNat) s :=
  actsOnSt_of_roundKeys hs hl hk rfl rfl rfl (length_decipher tables) fun _ => rfl

/-- R116: ADDRK 0, the inner rounds in ascending order, EROUND and ADDRK nr compute Encipher. -/
theorem allActOnSt_encSequence :
    AllActOnSt (encSequence s.nr.toNat) (encipher tables s.roundKey s.nr.toNat) s := by
  have eround := actsOnSt_eround hs hl
  have addrk {r : Nat} (hr : r ≤ s.nr.toNat) := actsOnSt_addrk hs hl hr (hk r hr)
  have whitening : AllActOnSt [.addrk 0] (addW · (s.roundKey 0)) s := .cons (addrk (Nat.zero_le _)) .nil
  have inner : AllActOnSt ((innerRounds s.nr.toNat).flatMap fun r => [.eround, .xorrk r])
      (fun b => (innerRounds s.nr.toNat).foldl (encInnerRound tables s.roundKey) b) s := by
    refine .flatMap fun r mem => ?_
    have hr : r ≤ s.nr.toNat := le_of_mem_innerRounds mem
    exact .cons eround <| .cons (actsOnSt_xorrk hs hl hr (hk r hr)) .nil
  have last : AllActOnSt [.eround, .addrk s.nr.toNat]
      (fun b => addW (encRound tables b) (s.roundKey s.nr.toNat)) s := .cons eround <| .cons (addrk le_rfl) .nil
  exact (whitening.append inner).append last

/-- R117: SUBRK nr, the inner rounds in descending order, DROUND and SUBRK 0 compute Decipher. -/
theorem allActOnSt_decSequence :
    AllActOnSt (decSequence s.nr.toNat) (decipher tables s.roundKey s.nr.toNat) s := by
  have dround := actsOnSt_dround hs hl
  have subrk {r : Nat} (hr : r ≤ s.nr.toNat) := actsOnSt_subrk hs hl hr (hk r hr)
  have first : AllActOnSt [.subrk s.nr.toNat] (subW · (s.roundKey s.nr.toNat)) s := .cons (subrk le_rfl) .nil
  have inner : AllActOnSt ((innerRounds s.nr.toNat).reverse.flatMap fun r => [.dround, .xorrk r])
      (fun b => (innerRounds s.nr.toNat).reverse.foldl (decInnerRound tables s.roundKey) b) s := by
    refine .flatMap fun r mem => ?_
    have hr : r ≤ s.nr.toNat := le_of_mem_innerRounds (List.mem_reverse.mp mem)
    exact .cons dround <| .cons (actsOnSt_xorrk hs hl hr (hk r hr)) .nil
  have last : AllActOnSt [.dround, .subrk 0] (fun b => subW (decRound tables b) (s.roundKey 0)) s :=
    .cons dround <| .cons (subrk (Nat.zero_le _)) .nil
  exact (first.append inner).append last

end BlockCommands

/-- Settles O51: each block command and its sequence of stage commands apply the same function. -/
theorem encAndDecAreTheirStageCommands : Obligations.EncAndDecAreTheirStageCommands := fun _ hs hl hk =>
  ⟨exists_next_of_same_action hs (actsOnSt_enc hs hl hk) (allActOnSt_encSequence hs hl hk),
    exists_next_of_same_action hs (actsOnSt_dec hs hl hk) (allActOnSt_decSequence hs hl hk)⟩

/-- Settles O52: Decipher undoes Encipher under the round keys the machine holds. -/
theorem encThenDecRestoresTheState : Obligations.EncThenDecRestoresTheState := by
  intro s hs hl hk
  have hrow := mem_legalRows_of_ready hs
  exact execAll_pair_of_undo hs (actsOnSt_enc hs hl hk) (actsOnSt_dec hs hl hk) fun _ hb =>
    decipher_encipher (length_roundKey hrow) (nb_mem_of_mem_legalRows hrow) _ hb

end Sys2Proof.Machine
end

section
/-! PROOFS. The round-key table under the key schedule (spec/47_key_schedule.md rules R135 to R137): what an entry holds
after a list of round keys is written, what EVENKEYS and ODDKEYS leave in the table, and that EXPAND is these two after
Kt is written. So every step leaves a valid odd key with the even key it was made from. -/

namespace Sys2Proof.Machine

/-! ### Writing a list of round keys -/

/-- Every round index of a legal row has an entry in the table, and a row has more than one. -/
theorem nr_bounds_of_mem_legalRows {nb nk : BitVec 4} {nr : BitVec 5} (h : (nb, nk, nr) ∈ legalRows) :
    0 < nr.toNat ∧ nr.toNat < 19 := by
  simp only [legalRows, List.mem_cons, Prod.mk.injEq, List.not_mem_nil, or_false] at h
  obtain ⟨-, -, rfl⟩ | ⟨-, -, rfl⟩ | ⟨-, -, rfl⟩ | ⟨-, -, rfl⟩ | ⟨-, -, rfl⟩ := h <;> decide

/-- Words beyond a block that is written stay. -/
theorem wordAt_writeBlock_of_ge (v : Vector Word 8) {b : Block} {i : Nat} (h : b.length ≤ i) :
    wordAt (writeBlock v b) i = wordAt v i := by
  rcases Nat.lt_or_ge i 8 with h8 | h8
  · rw [wordAt_writeBlock _ _ h8, if_neg (Nat.not_lt.mpr h)]
  · rw [wordAt_of_ge _ h8, wordAt_of_ge _ h8]

section KeyLists

variable {keys : List (Nat × Block)} (s : State) {r : Nat}

theorem flagAt_writeRks_of_not_mem (h : r ∉ keys.map Prod.fst) : flagAt (writeRks keys s).rkv r = flagAt s.rkv r := by
  rcases Nat.lt_or_ge r 19 with hr | hr
  · rw [flagAt_writeRks keys s r hr, decide_eq_false h, Bool.false_or]
  · rw [flagAt_of_ge _ hr, flagAt_of_ge _ hr]

/-- A round key that no key of the list is for stays as it was. -/
theorem roundKey_writeRks_of_not_mem (h : r ∉ keys.map Prod.fst) : (writeRks keys s).roundKey r = s.roundKey r := by
  rw [State.roundKey, State.roundKey, rkEntry_writeRks_of_not_mem keys s r h, writeRks_nb]

/-- A round key of the list is read back, where the list has one key for each index. -/
theorem roundKey_writeRks_of_mem (once : (keys.map Prod.fst).Nodup) (lengths : ∀ e ∈ keys, e.2.length = s.nb.toNat)
    (h8 : s.nb.toNat ≤ 8) (hr : r < 19) {b : Block} (h : (r, b) ∈ keys) : (writeRks keys s).roundKey r = b := by
  induction keys generalizing s with
  | nil => cases h
  | cons e es ih =>
    obtain ⟨first, others⟩ := List.forall_mem_cons.mp lengths
    obtain ⟨notLater, onceLater⟩ := List.nodup_cons.mp once
    have split : writeRks (e :: es) s = writeRks es (writeRk e.1 e.2 s) := rfl
    rw [split]
    obtain rfl | later := List.mem_cons.mp h
    · rw [roundKey_writeRks_of_not_mem _ notLater, roundKey_writeRk _ hr first h8, if_pos rfl]
    · exact ih _ onceLater others h8 later

/-- Blocks of `nb` words leave the words beyond them in every entry. -/
theorem wordAt_rkEntry_writeRks_of_ge (lengths : ∀ e ∈ keys, e.2.length = s.nb.toNat) (r : Nat) {i : Nat}
    (hi : s.nb.toNat ≤ i) : wordAt ((writeRks keys s).rkEntry r) i = wordAt (s.rkEntry r) i := by
  induction keys generalizing s with
  | nil => rfl
  | cons e es ih =>
    obtain ⟨first, others⟩ := List.forall_mem_cons.mp lengths
    refine (ih (writeRk e.1 e.2 s) others hi).trans ?_
    rcases Nat.lt_or_ge r 19 with hr | hr
    · rw [rkEntry_writeRk _ _ _ _ hr]
      split_ifs with same
      · subst same
        exact wordAt_writeBlock_of_ge _ (first.trans_le hi)
      · rfl
    · simp [State.rkEntry, Nat.not_lt.mpr hr]

/-- Writing round keys has no part in ST or the free values. -/
theorem writeRks_invalidateSt (keys : List (Nat × Block)) :
    writeRks keys (invalidateSt s) = invalidateSt (writeRks keys s) := by
  induction keys generalizing s with
  | nil => rfl
  | cons e es ih => exact ih (writeRk e.1 e.2 s)

end KeyLists

/-! ### The indices of the lists -/

theorem nodup_map_fst_evenKeys (T : Config.Tables) (nb nk : Nat) {nr : Nat} (key kt : Block) (hnr : nr % 2 = 0) :
    ((evenKeys T nb nk nr key kt).map Prod.fst).Nodup := by
  rw [map_fst_evenKeys T nb nk key kt hnr]
  exact List.nodup_range' 2

theorem map_fst_oddKeys (nb nr : Nat) (rk : Nat → Block) :
    (oddKeys nb nr rk).map Prod.fst = (List.range (nr / 2)).map fun m => 2 * m + 1 := by
  simp [oddKeys, oddIndices]

theorem mem_map_fst_oddKeys (nb : Nat) {nr : Nat} (rk : Nat → Block) (hnr : nr % 2 = 0) (r : Nat) :
    r ∈ (oddKeys nb nr rk).map Prod.fst ↔ r % 2 = 1 ∧ r < nr := by
  rw [map_fst_oddKeys, List.mem_map]
  constructor
  · rintro ⟨m, hm, rfl⟩
    rw [List.mem_range] at hm
    omega
  · rintro ⟨odd, lt⟩
    exact ⟨r / 2, List.mem_range.mpr (by omega), by omega⟩

theorem nodup_map_fst_oddKeys (nb nr : Nat) (rk : Nat → Block) : ((oddKeys nb nr rk).map Prod.fst).Nodup := by
  rw [map_fst_oddKeys]
  exact List.nodup_range.map fun _ _ h => by simpa using h

/-! ### The table after EVENKEYS and after ODDKEYS -/

/-- EVENKEYS changes the round keys and ST alone (R135). -/
theorem evenkeysEffect_frame (s : State) :
    evenkeysEffect s =
      { s with
        rk := (evenkeysEffect s).rk, rkv := (evenkeysEffect s).rkv, st := (evenkeysEffect s).st
        stv := (evenkeysEffect s).stv, freeDraws := (evenkeysEffect s).freeDraws } := by
  rw [evenkeysEffect, writeRks_frame]
  rfl

/-- ODDKEYS changes the round keys alone (R136). -/
theorem oddkeysEffect_frame (s : State) :
    oddkeysEffect s = { s with rk := (oddkeysEffect s).rk, rkv := (oddkeysEffect s).rkv } := writeRks_frame _ s

@[simp] theorem evenkeysEffect_nb (s : State) : (evenkeysEffect s).nb = s.nb := by rw [evenkeysEffect_frame]
@[simp] theorem evenkeysEffect_nk (s : State) : (evenkeysEffect s).nk = s.nk := by rw [evenkeysEffect_frame]
@[simp] theorem evenkeysEffect_nr (s : State) : (evenkeysEffect s).nr = s.nr := by rw [evenkeysEffect_frame]
@[simp] theorem evenkeysEffect_ctx (s : State) : (evenkeysEffect s).ctx = s.ctx := by rw [evenkeysEffect_frame]
@[simp] theorem evenkeysEffect_stv (s : State) : (evenkeysEffect s).stv = Vector.replicate 8 false := rfl
@[simp] theorem oddkeysEffect_nb (s : State) : (oddkeysEffect s).nb = s.nb := writeRks_nb _ s
@[simp] theorem oddkeysEffect_nr (s : State) : (oddkeysEffect s).nr = s.nr := writeRks_nr _ s
@[simp] theorem oddkeysEffect_ctx (s : State) : (oddkeysEffect s).ctx = s.ctx := writeRks_ctx _ s
@[simp] theorem oddkeysEffect_stv (s : State) : (oddkeysEffect s).stv = s.stv := writeRks_stv _ s

section Table

variable {s : State} (hrow : (s.nb, s.nk, s.nr) ∈ legalRows)
include hrow

theorem legalRow_evenkeysEffect :
    ((evenkeysEffect s).nb, (evenkeysEffect s).nk, (evenkeysEffect s).nr) ∈ legalRows := by
  simpa using hrow

/-- After EVENKEYS exactly the even keys are valid. -/
theorem flagAt_evenkeysEffect (r : Nat) :
    flagAt (evenkeysEffect s).rkv r = decide (r % 2 = 0 ∧ r ≤ s.nr.toNat) := by
  obtain ⟨-, -, -, hnr⟩ := bounds_of_mem_legalRows hrow
  obtain ⟨-, small⟩ := nr_bounds_of_mem_legalRows hrow
  have listed : r ∈ (s.evenKeysWith s.ktBlock).map Prod.fst ↔ r % 2 = 0 ∧ r ≤ s.nr.toNat :=
    mem_map_fst_evenKeys _ _ _ _ _ hnr r
  rw [evenkeysEffect, invalidateSt_rkv]
  by_cases h : r % 2 = 0 ∧ r ≤ s.nr.toNat
  · rw [flagAt_writeRks _ _ _ (by omega), decide_eq_true (listed.mpr h), decide_eq_true h, Bool.true_or]
  · rw [flagAt_writeRks_of_not_mem _ (mt listed.mp h), decide_eq_false h, invalidateRk_rkv, flagAt_replicate_false]

/-- So ODDKEYS finds the even keys it reads. -/
theorem evenValid_evenkeysEffect :
    ∀ m < (evenkeysEffect s).nr.toNat / 2, flagAt (evenkeysEffect s).rkv (2 * m) = true := by
  intro m hm
  rw [evenkeysEffect_nr] at hm
  rw [flagAt_evenkeysEffect hrow, decide_eq_true_eq]
  omega

/-- Each key that EvenKeys lists stands in the table after EVENKEYS. -/
theorem roundKey_evenkeysEffect {r : Nat} {b : Block} (h : (r, b) ∈ s.evenKeysWith s.ktBlock) :
    (evenkeysEffect s).roundKey r = b := by
  obtain ⟨-, le, h8, hnr⟩ := bounds_of_mem_legalRows hrow
  obtain ⟨-, small⟩ := nr_bounds_of_mem_legalRows hrow
  have inTable : r ≤ s.nr.toNat := le_of_mem_evenKeys hnr _ h
  exact roundKey_writeRks_of_mem (invalidateRk s) (nodup_map_fst_evenKeys _ _ _ _ _ hnr)
    (length_of_mem_evenKeysWith hrow (length_ktBlock hrow)) (le.trans h8) (by omega) h

/-- After ODDKEYS the odd keys below `nr` are valid, and every other valid bit is as it was. -/
theorem flagAt_oddkeysEffect (r : Nat) :
    flagAt (oddkeysEffect s).rkv r = (decide (r % 2 = 1 ∧ r < s.nr.toNat) || flagAt s.rkv r) := by
  obtain ⟨-, -, -, hnr⟩ := bounds_of_mem_legalRows hrow
  obtain ⟨-, small⟩ := nr_bounds_of_mem_legalRows hrow
  have listed := mem_map_fst_oddKeys s.nb.toNat s.roundKey hnr r
  rw [oddkeysEffect]
  by_cases h : r % 2 = 1 ∧ r < s.nr.toNat
  · rw [flagAt_writeRks _ _ _ (by omega), decide_eq_true (listed.mpr h), decide_eq_true h]
  · rw [flagAt_writeRks_of_not_mem _ (mt listed.mp h), decide_eq_false h, Bool.false_or]

/-- ODDKEYS keeps every entry but the odd ones below `nr`. -/
theorem rkEntry_oddkeysEffect_of_kept {r : Nat} (h : r % 2 = 0 ∨ s.nr.toNat ≤ r) :
    (oddkeysEffect s).rkEntry r = s.rkEntry r := by
  obtain ⟨-, -, -, hnr⟩ := bounds_of_mem_legalRows hrow
  refine rkEntry_writeRks_of_not_mem _ s r ?_
  rw [mem_map_fst_oddKeys _ _ hnr]
  omega

theorem roundKey_oddkeysEffect_of_kept {r : Nat} (h : r % 2 = 0 ∨ s.nr.toNat ≤ r) :
    (oddkeysEffect s).roundKey r = s.roundKey r := by
  rw [State.roundKey, State.roundKey, rkEntry_oddkeysEffect_of_kept hrow h, oddkeysEffect_nb]

/-- ODDKEYS makes each odd key below `nr` from the even key before it. -/
theorem roundKey_oddkeysEffect_odd {m : Nat} (h : 2 * m < s.nr.toNat) :
    (oddkeysEffect s).roundKey (2 * m + 1) = oddKey s.nb.toNat (s.roundKey (2 * m)) := by
  obtain ⟨-, le, h8, hnr⟩ := bounds_of_mem_legalRows hrow
  obtain ⟨-, small⟩ := nr_bounds_of_mem_legalRows hrow
  exact roundKey_writeRks_of_mem s (nodup_map_fst_oddKeys _ _ _)
    (length_of_mem_oddKeys fun m _ => length_roundKey hrow _) (le.trans h8) (by omega)
    ((mem_oddKeys _ _ _ _).mpr ⟨m, by omega, rfl⟩)

/-- EXPAND does what EVENKEYS and then ODDKEYS do, after Kt is written (R137): it rotates the even keys from the list
of EvenKeys, which are those that EVENKEYS leaves in the table. -/
theorem expandEffect_eq : expandEffect s = oddkeysEffect (evenkeysEffect (writeKt s.ktOfKey s)) := by
  obtain ⟨-, le, h8, hnr⟩ := bounds_of_mem_legalRows hrow
  have ktRead : (writeKt s.ktOfKey s).ktBlock = s.ktOfKey := ktBlock_writeKt (length_ktOfKey hrow) (le.trans h8)
  have sameEven : (evenkeysEffect (writeKt s.ktOfKey s)) = invalidateSt
      (writeRks (s.evenKeysWith s.ktOfKey) (invalidateRk (writeKt s.ktOfKey s))) := by
    rw [evenkeysEffect, ktRead]
    rfl
  have sameOdd : oddKeys s.nb.toNat s.nr.toNat (evenkeysEffect (writeKt s.ktOfKey s)).roundKey =
      oddKeys s.nb.toNat s.nr.toNat (lookupKey (s.evenKeysWith s.ktOfKey)) := by
    refine oddKeys_congr _ fun m hm => ?_
    refine roundKey_evenkeysEffect (s := writeKt s.ktOfKey s) hrow ?_
    rw [ktRead]
    exact mem_lookupKey ((mem_map_fst_evenKeys _ _ _ _ _ hnr _).mpr ⟨by omega, by omega⟩)
  rw [oddkeysEffect, evenkeysEffect_nb, evenkeysEffect_nr, writeKt_nb, writeKt_nr, sameOdd, sameEven,
    writeRks_invalidateSt]
  rfl

/-! ### Odd keys and the even keys before them -/

/-- EVENKEYS leaves no odd key valid. -/
theorem evenkeysEffect_oddKeysBelongToEvenKeys : (evenkeysEffect s).OddKeysBelongToEvenKeys := by
  intro m valid
  rw [flagAt_evenkeysEffect hrow, decide_eq_true_eq] at valid
  omega

/-- ODDKEYS makes the odd keys below `nr` from their even keys, and keeps the others with theirs. -/
theorem oddkeysEffect_keeps_oddKeysBelongToEvenKeys (even : ∀ m < s.nr.toNat / 2, flagAt s.rkv (2 * m) = true)
    (h : s.OddKeysBelongToEvenKeys) : (oddkeysEffect s).OddKeysBelongToEvenKeys := by
  obtain ⟨-, -, -, hnr⟩ := bounds_of_mem_legalRows hrow
  intro m valid
  have evenKept : flagAt (oddkeysEffect s).rkv (2 * m) = flagAt s.rkv (2 * m) := by
    rw [flagAt_oddkeysEffect hrow, decide_eq_false (by omega), Bool.false_or]
  rw [evenKept, oddkeysEffect_nb, roundKey_oddkeysEffect_of_kept hrow (r := 2 * m) (.inl (by omega))]
  rcases Nat.lt_or_ge (2 * m) s.nr.toNat with made | beyond
  · exact ⟨even m (by omega), roundKey_oddkeysEffect_odd hrow made⟩
  · rw [flagAt_oddkeysEffect hrow, decide_eq_false (by omega), Bool.false_or] at valid
    rw [roundKey_oddkeysEffect_of_kept hrow (.inr (by omega))]
    exact h m valid

end Table

/-- Whether odd keys belong to their even keys is a matter of the table, its valid bits and the block length. -/
theorem oddKeysBelongToEvenKeys_congr {s t : State} (hrk : t.rk = s.rk) (hrkv : t.rkv = s.rkv) (hnb : t.nb = s.nb)
    (h : s.OddKeysBelongToEvenKeys) : t.OddKeysBelongToEvenKeys := by
  intro m valid
  rw [hrkv] at valid ⊢
  simpa only [State.roundKey, State.rkEntry, hrk, hnb] using h m valid

/-- An empty table has no odd key. -/
theorem oddKeysBelongToEvenKeys_of_empty {s : State} (h : s.rkv = Vector.replicate 19 false) :
    s.OddKeysBelongToEvenKeys := by
  intro m valid
  rw [h, flagAt_replicate_false] at valid
  cases valid

theorem effect_keeps_oddKeysBelongToEvenKeys {i : Instr} {s : State} (hx : executes i s = true) (hl : s.LegalConfig)
    (h : s.OddKeysBelongToEvenKeys) : (effect i s).OddKeysBelongToEvenKeys := by
  have row (hi : needsNoContext i = false) := hl.1 (ctx_of_executes hx hi)
  have written := operandsWritten_of_executes hx
  cases i with
  | create ksz bsz =>
    obtain ⟨nb, nk, nr, -, hcreate⟩ := effect_create hx
    rw [hcreate]
    exact oddKeysBelongToEvenKeys_of_empty rfl
  | destroy => exact oddKeysBelongToEvenKeys_of_empty rfl
  | evenkeys => exact evenkeysEffect_oddKeysBelongToEvenKeys (row rfl)
  | oddkeys =>
    exact oddkeysEffect_keeps_oddKeysBelongToEvenKeys (row rfl) (by simpa [operandsWritten] using written) h
  | expand =>
    have hrow : ((writeKt s.ktOfKey s).nb, (writeKt s.ktOfKey s).nk, (writeKt s.ktOfKey s).nr) ∈ legalRows := row rfl
    rw [effect, expandEffect_eq (row rfl)]
    exact oddkeysEffect_keeps_oddKeysBelongToEvenKeys (legalRow_evenkeysEffect hrow) (evenValid_evenkeysEffect hrow)
      (evenkeysEffect_oddKeysBelongToEvenKeys hrow)
  | _ => exact oddKeysBelongToEvenKeys_congr rfl rfl rfl h

/-- Settles O18: with the invariant of O16, for the configuration is what gives the round keys their length. -/
theorem everyStepKeepsOddKeysWithTheirEvenKeys : Obligations.EveryStepKeepsOddKeysWithTheirEvenKeys := by
  intro s t hinv hodd ht
  have both : t.Inv ∧ t.OddKeysBelongToEvenKeys :=
    step_keeps (P := fun u => u.Inv ∧ u.OddKeysBelongToEvenKeys) (fun _ _ _ _ h => h)
      (fun u => ⟨resetCore_inv u, oddKeysBelongToEvenKeys_of_empty rfl⟩)
      (fun code _ ⟨inv, odd⟩ => ⟨errorEntry_keeps_inv code inv, odd⟩)
      (fun _ _ hx ⟨inv, odd⟩ =>
        ⟨effect_keeps_inv hx inv, effect_keeps_oddKeysBelongToEvenKeys hx inv.1 odd⟩) ⟨hinv, hodd⟩ ht
  exact both.2

end Sys2Proof.Machine
end

section
/-! PROOFS. The key schedule's functions in closed form (spec/47_key_schedule.md rules R133 and R134): each turn of the
EvenKeys loop advances the tweak by one shift for each key and the key by one rotation, and an odd key is the even key's
bytes rotated. -/

namespace Sys2Proof.Machine

/-! ### The loop's variables in closed form (R133) -/

/-- The closed form's rotation by `q` words is the library's. -/
theorem rotw_eq_rotate (key : Block) (q : Nat) : rotw key q = key.rotate q := by
  refine List.ext_getElem (by simp [rotw]) fun i hi hi' => ?_
  have inside : (i + q) % key.length < key.length := Nat.mod_lt _ (Nat.zero_lt_of_lt (by simpa using hi'))
  simp [rotw, List.getElem_rotate, inside]

theorem rotateWords_eq_rotate (key : Block) : rotateWords key = key.rotate 1 := by
  cases key <;> simp [rotateWords]

@[simp] theorem rotw_zero (key : Block) : rotw key 0 = key := by
  rw [rotw_eq_rotate, List.rotate_zero]

/-- One more rotation of the loop is one more word in the closed form. -/
@[simp] theorem rotateWords_rotw (key : Block) (q : Nat) : rotateWords (rotw key q) = rotw key (q + 1) := by
  rw [rotateWords_eq_rotate, rotw_eq_rotate, rotw_eq_rotate, List.rotate_rotate]

theorem tmvShift_tmvAt (nb m : Nat) : tmvShift (tmvAt nb m) = tmvAt nb (m + 1) := by
  rw [tmvShift, tmvAt, tmvAt, List.map_replicate, BitVec.shiftLeft_add]

theorem tmvInit_eq_tmvAt (nb : Nat) : tmvInit nb = tmvAt nb 0 := rfl

section Loop

variable (T : Config.Tables) (nb nk nr : Nat) (key kt : Block)

/-- The entry for index `2m` that the closed form gives. -/
def evenEntry (m : Nat) : Nat × Block := (2 * m, evenKeyClosed T nb nk key kt m)

/-- With a single-length key, a turn makes one key and rotates once. -/
theorem evenLoop_eq_map_of_single (hk : nk ≠ 2 * nb) (fuel m k : Nat) (hm : 2 * (m + k) = nr) (hf : k < fuel) :
    evenLoop T kt nb nk nr fuel (2 * m) (tmvAt nb m) (rotw key m) =
      (List.range' m (k + 1)).map (evenEntry T nb nk key kt) := by
  induction fuel generalizing m k with
  | zero => omega
  | succ fuel ih =>
    have first : (2 * m, derive T kt ((rotw key m).take nb) (tmvAt nb m)) = evenEntry T nb nk key kt m := by
      rw [evenEntry, evenKeyClosed, if_neg hk]
    rw [evenLoop]
    simp only [first, if_neg hk, tmvShift_tmvAt, rotateWords_rotw]
    cases k with
    | zero =>
      rw [if_pos (by omega)]
      rfl
    | succ k =>
      rw [if_neg (by omega), ← Nat.mul_succ, ih (m + 1) k (by omega) (by omega)]
      rfl

/-- With a double-length key, a turn makes a key from each half and rotates once. -/
theorem evenLoop_eq_map_of_double (hk : nk = 2 * nb) (fuel q k : Nat) (hm : 2 * (2 * q + k) = nr) (hf : k < fuel) :
    evenLoop T kt nb nk nr fuel (4 * q) (tmvAt nb (2 * q)) (rotw key q) =
      (List.range' (2 * q) (k + 1)).map (evenEntry T nb nk key kt) := by
  induction fuel generalizing q k with
  | zero => omega
  | succ fuel ih =>
    have first : (4 * q, derive T kt ((rotw key q).take nb) (tmvAt nb (2 * q))) =
        evenEntry T nb nk key kt (2 * q) := by
      simp [evenEntry, evenKeyClosed, hk, ← Nat.mul_assoc]
    have second : (4 * q + 2, derive T kt (((rotw key q).drop nb).take nb) (tmvAt nb (2 * q + 1))) =
        evenEntry T nb nk key kt (2 * q + 1) := by
      have half : (2 * q + 1) / 2 = q := by omega
      simp [evenEntry, evenKeyClosed, hk, half, Nat.mul_add, ← Nat.mul_assoc]
    rw [evenLoop]
    simp only [tmvShift_tmvAt, rotateWords_rotw, first, second, if_pos hk]
    obtain _ | _ | k := k
    · rw [if_pos (by omega)]
      rfl
    · rw [if_neg (by omega), if_pos (by omega)]
      rfl
    · rw [if_neg (by omega), if_neg (by omega)]
      have next := ih (q + 1) k (by omega) (by omega)
      rw [Nat.mul_succ, Nat.mul_succ] at next
      rw [next]
      rfl

/-- R133: EvenKeys lists the closed form at the even indices in order. -/
theorem evenKeys_eq_map (hnr : nr % 2 = 0) :
    evenKeys T nb nk nr key kt = (List.range (nr / 2 + 1)).map (evenEntry T nb nk key kt) := by
  rw [List.range_eq_range', evenKeys, tmvInit_eq_tmvAt]
  by_cases hk : nk = 2 * nb
  · simpa using evenLoop_eq_map_of_double T nb nk nr key kt hk (nr / 2 + 1) 0 (nr / 2) (by omega) (by omega)
  · simpa using evenLoop_eq_map_of_single T nb nk nr key kt hk (nr / 2 + 1) 0 (nr / 2) (by omega) (by omega)

end Loop

/-- Settles O35: the loop keeps its variables at their closed forms, for single and for double-length keys. -/
theorem evenKeyLoopHasTheClosedForm : Obligations.EvenKeyLoopHasTheClosedForm := by
  intro T nb nk nr key kt hrow _
  obtain ⟨-, -, -, hnr⟩ := bounds_of_mem_legalRows hrow
  exact evenKeys_eq_map T _ _ _ key kt hnr

/-! ### The odd keys byte by byte (R134) -/

theorem getD_rotateBytes (k : Nat) {b : List Byte} {j : Nat} (hj : j < b.length) :
    (rotateBytes k b).getD j 0#8 = b.getD ((j + k) % b.length) 0#8 := by
  simp [rotateBytes, hj]

theorem getD_bytes_oddKey {nb : Nat} {even : Block} (hb : even.length = nb) {j : Nat} (hj : j < 8 * nb) :
    (bytes (oddKey nb even)).getD j 0#8 = (bytes even).getD ((j + (2 * nb + 3)) % (8 * nb)) 0#8 := by
  have length : (bytes even).length = 8 * nb := by rw [length_bytes, hb]
  rw [oddKey, bytes_words (by simp [length]), getD_rotateBytes _ (by rwa [length]), length]

/-- Settles O36: the list goes through the odd indices, and the words of an odd key have the rotated bytes. -/
theorem oddKeysAreRotatedEvenKeys : Obligations.OddKeysAreRotatedEvenKeys := by
  intro nb nk nr rk _ lengths
  refine ⟨map_fst_oddKeys _ _ _, fun e he => ?_⟩
  obtain ⟨m, -, rfl⟩ := (mem_oddKeys _ _ _ _).mp he
  exact ⟨(length_oddKey _ _).trans (lengths _), fun j hj => getD_bytes_oddKey (lengths _) hj⟩

end Sys2Proof.Machine
end

section
/-! PROOFS. The commands of the key schedule (spec/47_key_schedule.md rules R131, R135, R136 and R137): with its
operands loaded each command answers its effect, whose values are the closed forms of R130, R133 and R134. -/

namespace Sys2Proof.Machine

/-! ### Conditions and blocks -/

/-- KEYED is the condition of R26. -/
theorem keyed_eq_true_iff (s : State) : s.keyed = true ↔ s.ctx = true ∧ s.RkLoaded := by
  rw [State.keyed, Bool.and_eq_true, State.rkComplete, allValid_iff]
  simp only [Nat.lt_succ_iff]

/-- The key has as many words as the block, or twice as many (R2). -/
theorem nk_of_mem_legalRows {nb nk : BitVec 4} {nr : BitVec 5} (h : (nb, nk, nr) ∈ legalRows) :
    nk.toNat = nb.toNat ∨ nk.toNat = 2 * nb.toNat := by
  simp only [legalRows, List.mem_cons, Prod.mk.injEq, List.not_mem_nil, or_false] at h
  obtain ⟨rfl, rfl, -⟩ | ⟨rfl, rfl, -⟩ | ⟨rfl, rfl, -⟩ | ⟨rfl, rfl, -⟩ | ⟨rfl, rfl, -⟩ := h <;> decide

/-- A slice of a block read, word by word. -/
theorem slice_readBlock (v : Vector Word 8) {start n len : Nat} (h : start + n ≤ len) (h8 : len ≤ 8) :
    ((readBlock v len).drop start).take n = (List.range n).map fun i => wordAt v (i + start) := by
  refine List.ext_getElem (by simp; omega) fun i hi _ => ?_
  have inFile : start + i < 8 := by
    simp at hi
    omega
  simp [readBlock, wordAt_of_lt v inFile, Nat.add_comm i start]

/-! ### KTGEN -/

/-- The seed has `nb` words, and only word 0 is not 0 (R130). -/
theorem ktSeed_spec {nb : Nat} (nk : Nat) (hnb : 0 < nb) :
    (ktSeed nb nk).length = nb ∧ (ktSeed nb nk).getD 0 0#64 = BitVec.ofNat 64 (nb + nk + 1) ∧
      ∀ i, 1 ≤ i → (ktSeed nb nk).getD i 0#64 = 0#64 := by
  refine ⟨by simp [ktSeed]; omega, rfl, fun i hi => ?_⟩
  obtain ⟨i, rfl⟩ := Nat.exists_eq_add_of_le' hi
  simp [ktSeed]

/-- Kt of the key in KEY with the two parts of the key read word by word (R130). -/
theorem ktOfKey_eq {s : State} (hrow : (s.nb, s.nk, s.nr) ∈ legalRows) :
    s.ktOfKey = encRound tables (twoRounds tables ((List.range s.nb.toNat).map (wordAt s.key))
      ((List.range s.nb.toNat).map fun i => wordAt s.key (i + (s.nk.toNat - s.nb.toNat)))
      (ktSeed s.nb.toNat s.nk.toNat)) := by
  obtain ⟨pos, le, h8, -⟩ := bounds_of_mem_legalRows hrow
  have k0 : s.keyBlock.take s.nb.toNat = (List.range s.nb.toNat).map (wordAt s.key) :=
    slice_readBlock s.key (start := 0) (by omega) h8
  have k1 : (if s.nk.toNat = 2 * s.nb.toNat then (s.keyBlock.drop s.nb.toNat).take s.nb.toNat
      else s.keyBlock.take s.nb.toNat) =
      (List.range s.nb.toNat).map fun i => wordAt s.key (i + (s.nk.toNat - s.nb.toNat)) := by
    obtain single | double := nk_of_mem_legalRows hrow
    · rw [if_neg (by omega), k0, single, Nat.sub_self]
      rfl
    · rw [if_pos double, State.keyBlock, slice_readBlock s.key (by omega) h8, double, Nat.two_mul, Nat.add_sub_cancel]
  rw [State.ktOfKey, ktGen, k1, k0]

section Commands

variable {s : State} (hs : s.Ready)
include hs

theorem exec_ktgen (hk : s.KeyLoaded) : exec .ktgen s = .next (ktgenEffect s) :=
  exec_of_executes (executes_of_ready hs rfl rfl ((allValid_iff _ _).mpr hk))

theorem exec_evenkeys (hk : s.KeyLoaded) (hkt : s.ktv = true) : exec .evenkeys s = .next (evenkeysEffect s) :=
  exec_of_executes (executes_of_ready hs rfl rfl (Bool.and_eq_true_iff.mpr ⟨(allValid_iff _ _).mpr hk, hkt⟩))

theorem exec_oddkeys (even : ∀ m < s.nr.toNat / 2, flagAt s.rkv (2 * m) = true) :
    exec .oddkeys s = .next (oddkeysEffect s) :=
  exec_of_executes (executes_of_ready hs rfl rfl (by simpa [operandsWritten] using even))

theorem exec_expand (hk : s.KeyLoaded) : exec .expand s = .next (expandEffect s) :=
  exec_of_executes (executes_of_ready hs rfl rfl ((allValid_iff _ _).mpr hk))

end Commands

/-- Settles O54: Kt is written over the words `0..nb-1` of KT, and the parts of the key are slices of KEY. -/
theorem ktgenDerivesKt : Obligations.KtgenDerivesKt := by
  intro s hs hk
  have hrow := mem_legalRows_of_ready hs
  obtain ⟨pos, -⟩ := bounds_of_mem_legalRows hrow
  have length := length_ktOfKey hrow
  refine ⟨ktgenEffect s, exec_ktgen hs hk, rfl, flagAt_replicate_false 8,
    fun i hi => wordAt_writeBlock_of_ge s.kt (length.trans_le hi), _, _, _, ktSeed_spec _ pos, rfl, rfl, ?_⟩
  exact (ktBlock_writeKt length (nb_le_eight hs)).trans (ktOfKey_eq hrow)

/-! ### EVENKEYS -/

/-- Settles O55: the list of EvenKeys is the closed form, and the table holds what it lists. -/
theorem evenkeysDerivesTheEvenKeys : Obligations.EvenkeysDerivesTheEvenKeys := by
  intro s hs hk hkt
  have hrow := mem_legalRows_of_ready hs
  obtain ⟨-, -, -, hnr⟩ := bounds_of_mem_legalRows hrow
  obtain ⟨pos, -⟩ := nr_bounds_of_mem_legalRows hrow
  have valid := flagAt_evenkeysEffect hrow
  refine ⟨evenkeysEffect s, exec_evenkeys hs hk hkt, evenkeysEffect_frame s, flagAt_replicate_false 8, valid, ?keyed,
    fun m hm => roundKey_evenkeysEffect hrow ?listed⟩
  case keyed =>
    rw [Bool.eq_false_iff, ne_eq, keyed_eq_true_iff]
    rintro ⟨-, complete⟩
    have oddValid := complete 1 (by rwa [evenkeysEffect_nr])
    rw [valid] at oddValid
    cases oddValid
  case listed =>
    rw [State.evenKeysWith, evenKeys_eq_map _ _ _ _ _ _ hnr]
    exact List.mem_map.mpr ⟨m, List.mem_range.mpr (by omega), rfl⟩

/-! ### ODDKEYS -/

/-- Settles O56: the odd entries below `nr` are written, and no other. -/
theorem oddkeysRotatesTheEvenKeys : Obligations.OddkeysRotatesTheEvenKeys := by
  intro s hs even
  have ⟨_, context, hrow⟩ := hs
  obtain ⟨-, -, -, hnr⟩ := bounds_of_mem_legalRows hrow
  have length := length_roundKey hrow
  have valid := flagAt_oddkeysEffect hrow
  refine ⟨oddkeysEffect s, exec_oddkeys hs fun m hm => even m (by omega), oddkeysEffect_frame s,
    fun m hm => ⟨?made, fun j hj => ?bytes⟩, fun r hr => ⟨rkEntry_oddkeysEffect_of_kept hrow (by omega), ?kept⟩,
    fun r i hi => ?beyond, ?keyed⟩
  case made => rw [valid, decide_eq_true (by omega), Bool.true_or]
  case bytes => rw [roundKey_oddkeysEffect_odd hrow hm, getD_bytes_oddKey (length _) hj]
  case kept => rw [valid, decide_eq_false (by omega), Bool.false_or]
  case beyond => exact wordAt_rkEntry_writeRks_of_ge s (length_of_mem_oddKeys fun _ _ => length _) r hi
  case keyed =>
    rw [Bool.eq_iff_iff, keyed_eq_true_iff, oddkeysEffect_ctx, State.RkLoaded, oddkeysEffect_nr]
    refine ⟨fun ⟨_, complete⟩ => ?_, fun last => ⟨context, fun r hr => ?_⟩⟩
    · have last := complete s.nr.toNat le_rfl
      rwa [valid, decide_eq_false (by omega), Bool.false_or] at last
    · rw [valid, Bool.or_eq_true, decide_eq_true_eq]
      obtain lt | rfl := hr.lt_or_eq
      · obtain ⟨m, rfl | rfl⟩ := r.even_or_odd'
        · exact .inr (even m lt)
        · exact .inl ⟨by omega, lt⟩
      · exact .inr last

/-! ### EXPAND -/

section Expand

variable {s : State} (hrow : (s.nb, s.nk, s.nr) ∈ legalRows)
include hrow

/-- ODDKEYS completes the table that EVENKEYS leaves. -/
theorem flagAt_oddkeysEffect_evenkeysEffect (r : Nat) :
    flagAt (oddkeysEffect (evenkeysEffect s)).rkv r = decide (r ≤ s.nr.toNat) := by
  obtain ⟨-, -, -, hnr⟩ := bounds_of_mem_legalRows hrow
  rw [flagAt_oddkeysEffect (legalRow_evenkeysEffect hrow), flagAt_evenkeysEffect hrow, evenkeysEffect_nr,
    ← Bool.decide_or, decide_eq_decide]
  omega

/-- What ST holds has no part in what EVENKEYS leaves. -/
theorem alike_evenkeysEffect_invalidateSt : Alike (evenkeysEffect s) (evenkeysEffect (invalidateSt s)) := by
  obtain ⟨-, le, h8, -⟩ := bounds_of_mem_legalRows hrow
  have emptied : Alike (invalidateSt (invalidateRk s)) (invalidateSt (invalidateRk (invalidateSt s))) := by
    constructor
    case st | rk => simp
    case key | aux => exact fun _ _ => rfl
    case kt => exact fun _ => rfl
    all_goals rfl
  rw [evenkeysEffect, evenkeysEffect, ← writeRks_invalidateSt, ← writeRks_invalidateSt]
  exact emptied.writeRks (length_of_mem_evenKeysWith hrow (length_ktBlock hrow)) (le.trans h8)

/-- EXPAND changes KT, the round keys and ST alone (R137). -/
theorem expandEffect_frame :
    expandEffect s =
      { s with
        kt := (expandEffect s).kt, ktv := true, rk := (expandEffect s).rk, rkv := (expandEffect s).rkv
        st := (expandEffect s).st, stv := (expandEffect s).stv, freeDraws := (expandEffect s).freeDraws } := by
  rw [expandEffect_eq hrow, oddkeysEffect_frame, evenkeysEffect_frame]
  rfl

end Expand

theorem ready_evenkeysEffect {s : State} (hs : s.Ready) : (evenkeysEffect s).Ready := by
  rw [evenkeysEffect_frame]
  exact hs

/-- KTGEN; EVENKEYS; ODDKEYS run one after the other, for each leaves what the next one reads. -/
theorem execAll_keySchedule {s : State} (hs : s.Ready) (hk : s.KeyLoaded) :
    execAll [.ktgen, .evenkeys, .oddkeys] s = .next (oddkeysEffect (evenkeysEffect (ktgenEffect s))) := by
  have hrow := mem_legalRows_of_ready hs
  have even : exec .evenkeys (ktgenEffect s) = .next (evenkeysEffect (ktgenEffect s)) := exec_evenkeys hs hk rfl
  have odd := exec_oddkeys (ready_evenkeysEffect (s := ktgenEffect s) hs) (evenValid_evenkeysEffect hrow)
  simp only [execAll, exec_ktgen hs hk, even, odd]

/-- Settles O57: EXPAND is ODDKEYS after EVENKEYS after the write of Kt, and that KTGEN loses ST before them makes no
difference that can be seen. -/
theorem expandIsTheThreeStepsInOne : Obligations.ExpandIsTheThreeStepsInOne := by
  intro s hs hk
  have ⟨_, context, hrow⟩ := hs
  have valid (r : Nat) : flagAt (expandEffect s).rkv r = decide (r ≤ s.nr.toNat) := by
    rw [expandEffect_eq hrow]
    exact flagAt_oddkeysEffect_evenkeysEffect (s := writeKt s.ktOfKey s) hrow r
  refine ⟨expandEffect s, oddkeysEffect (evenkeysEffect (ktgenEffect s)), exec_expand hs hk, execAll_keySchedule hs hk,
    ?agree, expandEffect_frame hrow, flagAt_replicate_false 8, valid, ?keyed⟩
  case agree =>
    have afterEven := alike_evenkeysEffect_invalidateSt (s := writeKt s.ktOfKey s) hrow
    rw [agree_iff_alike, expandEffect_eq hrow]
    exact afterEven.oddkeysEffect (legalRow_evenkeysEffect hrow) (evenValid_evenkeysEffect hrow)
  case keyed =>
    rw [keyed_eq_true_iff, State.RkLoaded, expandEffect_frame hrow]
    exact ⟨context, fun r hr => (valid r).trans (decide_eq_true hr)⟩

end Sys2Proof.Machine
end

section
/-! PROOFS. The execution sequence, the errors and the reset (spec/60_exceptions.md rules R152 to R155,
spec/70_reset_and_hazards.md rule R180): a step decodes, and `exec_cases` says what follows. -/

namespace Sys2Proof.Machine

/-! ### Waiting and reset -/

/-- Settles O7: with nothing pending a step waits. -/
theorem stepWithNothingPendingWaits : Obligations.StepWithNothingPendingWaits := fun _ => step_of_nothing_pending

/-- Settles O8: the reset of the core writes every flag, field and valid bit, and neither the port nor what is
pending. -/
theorem resetEventClearsFlagsFieldsAndValidBits : Obligations.ResetEventClearsFlagsFieldsAndValidBits :=
  fun _ _ hp => ⟨_, step_of_reset hp, rfl⟩

/-! ### Errors -/

/-- A command that executes raises no error: one that is there afterwards was there before. -/
theorem effect_keeps_error {i : Instr} {s : State} (h : (effect i s).err = true) :
    (effect i s).err = s.err ∧ (effect i s).ecode = s.ecode ∧ (effect i s).eopc = s.eopc := by
  by_cases hi : i = .clrerr
  · subst hi
    cases h
  · simpa using effect_errorFields s hi

/-- NOP, CLRERR and RDSTAT are the commands that execute while ERR = 1. -/
theorem runsInErrorState_eq_false_iff (i : Instr) :
    runsInErrorState i = false ↔ i ≠ .nop ∧ i ≠ .rdstat ∧ i ≠ .clrerr := by
  cases i with
  | nop | rdstat | clrerr => simp [runsInErrorState]
  | _ => simp [runsInErrorState]

/-- A command behind the ERR gate does not execute while ERR = 1. -/
theorem executes_eq_false_of_error {i : Instr} {s : State} (he : s.err = true) (hi : runsInErrorState i = false) :
    executes i s = false := by
  simp [executes, he, hi]

/-- R203: a word that does not decode is ignored while ERR = 1. -/
theorem step_of_decode_error_of_error {s : State} {c : CmdWord} {d : Word} {rest : List HostEvent} {e : DecodeError}
    (hp : s.pending = .command c d :: rest) (he : s.err = true) (hd : decode c = .error e) :
    step s = .next (s.withPort c d rest) := by
  rw [step_of_command hp]
  simp only [executePort, hd]
  exact unlessError_of_error _ he

/-- Settles O10: the step of a word that decodes is the command's, whose four outcomes exclude each other. -/
theorem executionSequenceAndPriority : Obligations.ExecutionSequenceAndPriority := by
  intro s c d rest hp
  cases hd : decode c with
  | error e => exact ⟨fun he => step_of_decode_error hp he hd, fun he => step_of_decode_error_of_error hp he hd⟩
  | ok i =>
    simp only [stepRunsTheDecodedCommand s c d rest i hp hd]
    exact ⟨fun he hi => exec_of_ignored (executes_eq_false_of_error he hi) he, fun he code hc => exec_of_errorOf he hc,
      fun hx => ⟨_, exec_of_executes hx, exec_of_executes hx, effect_keeps_error⟩⟩

/-- Settles O11: an executing command raises no error, and an ignored one meets ERR = 1, so the command faulted. -/
theorem errorEntryWritesOnlyTheErrorFields : Obligations.ErrorEntryWritesOnlyTheErrorFields := by
  intro i s t h noError error
  obtain ⟨-, rfl⟩ | ⟨-, pending, -⟩ | ⟨-, -, code, hc, rfl⟩ := exec_cases h
  · obtain ⟨same, -⟩ := effect_keeps_error error
    exact absurd (error.symm.trans (same.trans noError)) (by decide)
  · exact absurd (pending.symm.trans noError) (by decide)
  · exact ⟨code, rfl, hc⟩

/-- Settles O12: a word other than the three is ignored, and CLRERR is the one command that writes the error fields
while ERR = 1. -/
theorem errorStateKeepsTheFirstError : Obligations.ErrorStateKeepsTheFirstError := by
  refine ⟨fun s c d rest hp he nop rdstat clrerr => ?ignored, fun i s t h he => ?kept⟩
  case ignored =>
    cases hd : decode c with
    | error e => exact step_of_decode_error_of_error hp he hd
    | ok i =>
      simp only [hd, ne_eq, Except.ok.injEq] at nop rdstat clrerr
      have gated : runsInErrorState i = false := (runsInErrorState_eq_false_iff i).mpr ⟨nop, rdstat, clrerr⟩
      rw [stepRunsTheDecodedCommand s c d rest i hp hd]
      exact exec_of_ignored (executes_eq_false_of_error he gated) he
  case kept =>
    obtain ⟨-, rfl⟩ | ⟨-, -, rfl⟩ | ⟨-, noError, -⟩ := exec_cases h
    · by_cases hi : i = .clrerr
      · subst hi
        exact .inr ⟨rfl, rfl⟩
      · exact .inl (by simpa [he] using effect_errorFields s hi)
    · exact .inl ⟨he, rfl, rfl⟩
    · exact absurd (he.symm.trans noError) (by decide)

/-- Settles O13: of all that a step can do, waiting and rejecting keep ERR = 1, and so does every command but
CLRERR. -/
theorem onlyClrerrAndResetLeaveTheErrorState : Obligations.OnlyClrerrAndResetLeaveTheErrorState := by
  intro s t error ht cleared
  have notKept : t.err ≠ true := by simp [cleared]
  obtain ⟨-, wait⟩ | ⟨rest, hp, -⟩ | ⟨c, d, rest, i, hp, hd, run⟩ | ⟨c, d, rest, e, hp, hd, -⟩ := step_cases s
  · cases wait.symm.trans ht
    exact absurd error notKept
  · exact .inl ⟨rest, hp⟩
  · obtain ⟨-, keeps⟩ := errorStateKeepsTheFirstError
    obtain ⟨kept, -⟩ | ⟨rfl, -⟩ := keeps i _ t (run.symm.trans ht) error
    · exact absurd kept notKept
    · exact .inr ⟨c, d, rest, hp, hd⟩
  · cases (step_of_decode_error_of_error hp error hd).symm.trans ht
    exact absurd error notKept

end Sys2Proof.Machine
end

section
/-! PROOFS. Context control and status (spec/48_control.md sections 1 and 2): CREATE and DESTROY from the parameter
table and the loss of contents, and the status word field by field (spec/10_state.md rule R27). -/

namespace Sys2Proof.Machine

/-! ### The status word -/

/-- Bit `i` of eight valid bits read as a byte is valid bit `i`. -/
theorem getLsbD_flagByte (v : Vector Bool 8) {i : Nat} (hi : i < 8) : (flagByte v).getLsbD i = flagAt v i := by
  rw [flagAt_of_lt v hi]
  simp only [flagByte, BitVec.getLsbD_append]
  obtain rfl | rfl | rfl | rfl | rfl | rfl | rfl | rfl :
      i = 0 ∨ i = 1 ∨ i = 2 ∨ i = 3 ∨ i = 4 ∨ i = 5 ∨ i = 6 ∨ i = 7 := by omega
  all_goals simp

section Status

variable (s : State)

/-- The flags in the low four bits. -/
theorem getLsbD_status : s.status.getLsbD 0 = s.ctx ∧ s.status.getLsbD 1 = s.keyed ∧ s.status.getLsbD 2 = s.err ∧
    s.status.getLsbD 3 = s.ktv := by
  simp only [State.status, BitVec.getLsbD_append]
  simp

/-- The status word as a number, each field at the weight of its lowest bit. -/
theorem toNat_status :
    s.status.toNat = s.eopc.toNat * 2 ^ 48 + (flagByte s.auxv).toNat * 2 ^ 40 + (flagByte s.keyv).toNat * 2 ^ 32 +
      (flagByte s.stv).toNat * 2 ^ 24 + s.nr.toNat * 2 ^ 16 + s.nk.toNat * 2 ^ 12 + s.nb.toNat * 2 ^ 8 +
      s.ecode.toNat * 2 ^ 4 + s.ktv.toNat * 2 ^ 3 + s.err.toNat * 2 ^ 2 + s.keyed.toNat * 2 + s.ctx.toNat := by
  simp only [State.status, toNat_append, BitVec.toNat_ofNat, BitVec.toNat_ofBool]
  omega

/-- The four flags take up less than the weight of ECODE. -/
theorem statusFlags_lt : s.ktv.toNat * 2 ^ 3 + s.err.toNat * 2 ^ 2 + s.keyed.toNat * 2 + s.ctx.toNat < 2 ^ 4 := by
  have := s.ktv.toNat_lt
  have := s.err.toNat_lt
  have := s.keyed.toNat_lt
  have := s.ctx.toNat_lt
  omega

/-- The fields above the flags. -/
theorem extractLsb'_status :
    s.status.extractLsb' 4 4 = s.ecode ∧ s.status.extractLsb' 8 4 = s.nb ∧ s.status.extractLsb' 12 4 = s.nk ∧
      s.status.extractLsb' 16 5 = s.nr ∧ s.status.extractLsb' 21 3 = 0#3 ∧
      s.status.extractLsb' 24 8 = flagByte s.stv ∧ s.status.extractLsb' 32 8 = flagByte s.keyv ∧
      s.status.extractLsb' 40 8 = flagByte s.auxv ∧ s.status.extractLsb' 48 8 = s.eopc ∧
      s.status.extractLsb' 56 8 = 0#8 := by
  have flags := statusFlags_lt s
  have number := toNat_status s
  simp only [BitVec.toNat_eq, toNat_extractLsb', BitVec.toNat_ofNat]
  refine ⟨?_, ?_, ?_, ?_, ?_, ?_, ?_, ?_, ?_, ?_⟩ <;> omega

end Status

/-- A bit of a byte of a word that is eight valid bits. -/
theorem getLsbD_of_flagByte {w : Word} {start : Nat} {v : Vector Bool 8} (h : w.extractLsb' start 8 = flagByte v)
    {i : Nat} (hi : i < 8) : w.getLsbD (start + i) = flagAt v i := by
  rw [← getLsbD_flagByte v hi, ← h, BitVec.getLsbD_extractLsb', decide_eq_true hi, Bool.true_and]

/-- Settles O37: the three commands have no check, and the status word is read field by field. -/
theorem nopClrerrRdstatAlwaysComplete : Obligations.NopClrerrRdstatAlwaysComplete := by
  intro s
  obtain ⟨ctx, keyed, err, ktv⟩ := getLsbD_status s
  obtain ⟨ecode, nb, nk, nr, zero, stv, keyv, auxv, eopc, zero'⟩ := extractLsb'_status s
  refine ⟨rfl, rfl, setDout s.status s, rfl, rfl, ctx, ?keyed, err, ktv, ecode, nb, nk, nr, zero,
    fun i hi => ?validBits, eopc, zero'⟩
  case keyed => rw [setDout_dout, keyed, keyed_eq_true_iff]
  case validBits =>
    exact ⟨getLsbD_of_flagByte stv hi, getLsbD_of_flagByte keyv hi, getLsbD_of_flagByte auxv hi⟩

/-! ### CREATE and DESTROY -/

/-- With an empty round-key table KEYED is 0 (R26). -/
theorem keyed_eq_false_of_empty {s : State} (h : s.rkv = Vector.replicate 19 false) : s.keyed = false := by
  rw [Bool.eq_false_iff, ne_eq, keyed_eq_true_iff]
  rintro ⟨-, complete⟩
  have valid := complete 0 (Nat.zero_le _)
  rw [h, flagAt_replicate_false] at valid
  cases valid

theorem exec_create {ksz bsz : SizeCode} {nb nk : BitVec 4} {nr : BitVec 5} {s : State} (he : s.err = false)
    (row : paramRow bsz ksz = some (nb, nk, nr)) :
    exec (.create ksz bsz) s = .next (createContext nb nk nr s) := by
  have legal : parametersLegal (.create ksz bsz) = true := (isSome_paramRow ksz bsz).symm.trans (by rw [row]; rfl)
  rw [exec_of_executes ((executes_iff _ s).mpr ⟨.inr he, legal, .inl rfl, rfl, rfl⟩), effect, row]
  rfl

/-- The rows of the parameter table as R7 prints them. -/
theorem paramRow_of_mem {bsz ksz : SizeCode} {nb nk : BitVec 4} {nr : BitVec 5}
    (h : (bsz, ksz, nb, nk, nr) ∈
      [(.bits128, .bits128, 2#4, 2#4, 10#5), (.bits128, .bits256, 2#4, 4#4, 14#5), (.bits256, .bits256, 4#4, 4#4, 14#5),
        (.bits256, .bits512, 4#4, 8#4, 18#5), (.bits512, .bits512, 8#4, 8#4, 18#5)]) :
    paramRow bsz ksz = some (nb, nk, nr) := by
  simp only [List.mem_cons, Prod.mk.injEq, List.not_mem_nil, or_false] at h
  obtain ⟨rfl, rfl, rfl, rfl, rfl⟩ | ⟨rfl, rfl, rfl, rfl, rfl⟩ | ⟨rfl, rfl, rfl, rfl, rfl⟩ | ⟨rfl, rfl, rfl, rfl, rfl⟩ |
    ⟨rfl, rfl, rfl, rfl, rfl⟩ := h <;> rfl

/-- Settles O38: the context of the row is made whether or not there was one. -/
theorem createMakesAFreshContext : Obligations.CreateMakesAFreshContext := by
  intro s bsz ksz nb nk nr he hrow
  have row := paramRow_of_mem hrow
  obtain ⟨-, le, h8, -⟩ := bounds_of_mem_legalRows (mem_legalRows_of_paramRow row)
  refine ⟨createContext nb nk nr s, exec_create he row, rfl, fun i hi => ?zero, fun i => ?valid, fun i =>
    ⟨flagAt_replicate_false 8 i, flagAt_replicate_false 8 i, flagAt_replicate_false 19 i⟩, keyed_eq_false_of_empty rfl⟩
  case zero =>
    rw [createContext, zeroSt_st, wordAt_writeBlock _ _ (by omega)]
    simp [hi]
  case valid =>
    have none : flagAt (setConfig true nb nk nr (invalidateAll s)).stv i = false := flagAt_replicate_false 8 i
    rw [createContext, flagAt_zeroSt, none, Bool.or_false, decide_eq_decide]
    omega

/-- Settles O39: a pair that is not legal fails CREATE's one check. -/
theorem createRejectsEveryOtherPair : Obligations.CreateRejectsEveryOtherPair := by
  intro s bsz ksz he illegal
  have fails : errorOf (.create ksz bsz) s = some .invalidParams := by
    simp [errorOf, parametersLegal, illegal]
  exact exec_of_errorOf he fails

/-- Settles O40: the loss of contents clears every valid bit, and the configuration becomes 0. -/
theorem destroyEndsTheContext : Obligations.DestroyEndsTheContext := by
  intro s he hc
  have runs : executes .destroy s = true := (executes_iff _ s).mpr ⟨.inr he, rfl, .inr hc, rfl, rfl⟩
  exact ⟨destroyContext s, exec_of_executes runs, rfl, fun i => ⟨flagAt_replicate_false 8 i, flagAt_replicate_false 8 i,
    flagAt_replicate_false 8 i, flagAt_replicate_false 19 i⟩, keyed_eq_false_of_empty rfl⟩

end Sys2Proof.Machine
end

section
/-! PROOFS. The data port (spec/48_control.md sections 3 and 4): a load writes one word and its valid bit, and a read
puts one word on DOUT. -/

namespace Sys2Proof.Machine

section Loads

variable {s : State} (hs : s.Ready) {w : Nat}
include hs

theorem nk_le_eight : s.nk.toNat ≤ 8 := by
  obtain ⟨-, -, h8, -⟩ := bounds_of_mem_legalRows (mem_legalRows_of_ready hs)
  exact h8

/-- A command whose one check is that its word index is in range. -/
theorem executes_of_index {i : Instr} {n : BitVec 4} (hw : w < n.toNat) (parameters : parametersLegal i = true)
    (indices : indicesInRange s i = decide (w < n.toNat)) (operands : operandsWritten s i = true) :
    executes i s = true :=
  executes_of_ready hs parameters (indices.trans (decide_eq_true hw)) operands

end Loads

/-- A word loaded within the file is read back, and no other word or valid bit changes. -/
theorem setIfInBounds_spec (v : Vector Word 8) (flags : Vector Bool 8) (x : Word) {w : Nat} (hw : w < 8) (i : Nat) :
    wordAt (v.setIfInBounds w x) i = (if i = w then x else wordAt v i) ∧
      flagAt (flags.setIfInBounds w true) i = if i = w then true else flagAt flags i := by
  simp only [wordAt_setIfInBounds, flagAt_setIfInBounds, hw, and_true, and_self]

/-- Settles O41: both commands load one word within the block. -/
theorem ldstAndLdauxWriteOneWord : Obligations.LdstAndLdauxWriteOneWord := by
  intro s w hs hw
  have inFile : w < 8 := hw.trans_le (nb_le_eight hs)
  exact ⟨⟨loadSt w s.din s, exec_of_executes (executes_of_index hs hw rfl rfl rfl), rfl, setIfInBounds_spec _ _ _ inFile⟩,
    ⟨loadAux w s.din s, exec_of_executes (executes_of_index hs hw rfl rfl rfl), rfl, setIfInBounds_spec _ _ _ inFile⟩⟩

/-- Settles O42: the key word is loaded, and the loss of Kt touches neither KEY nor the round keys. -/
theorem ldkeyWritesOneWordAndInvalidatesKt : Obligations.LdkeyWritesOneWordAndInvalidatesKt := by
  intro s w hs hw
  exact ⟨invalidateKt (loadKey w s.din s), exec_of_executes (executes_of_index hs hw rfl rfl rfl), rfl,
    setIfInBounds_spec _ _ _ (hw.trans_le (nk_le_eight hs)), rfl⟩

/-- Settles O43: with its index in range and its word valid, a reading command executes, and the word is that of the
block. -/
theorem readCommandsPutTheWordOnDout : Obligations.ReadCommandsPutTheWordOnDout := by
  intro s r w hs hw
  refine ⟨fun valid => ?st, fun hr valid => ?rk, fun valid => ?kt⟩
  case st => exact exec_of_executes (executes_of_index hs hw rfl rfl valid)
  case rk =>
    have inRange : indicesInRange s (.rdrk r w) = true := by simp [indicesInRange, hr, hw]
    rw [State.roundKey, getD_readBlock _ hw]
    exact exec_of_executes (executes_of_ready hs rfl inRange valid)
  case kt =>
    rw [State.ktBlock, getD_readBlock _ hw]
    exact exec_of_executes (executes_of_index hs hw rfl rfl valid)

end Sys2Proof.Machine
end
